-- ==== Sys2Proof/Word.lean ====
section
/-! DEFINITION. The words of the VLT-416: bytes, 33-bit stream times and ticks, member masks (spec 0.6). -/

namespace Sys2Proof

/-- A byte of a packet or of a stored item. -/
abbrev Byte := BitVec 8

/-- A packet, or a body inside one: its bytes, first byte first. -/
abbrev Bytes := List (BitVec 8)

/-- A stream time, a 33-bit tick count that wraps (spec 0.6.2). -/
abbrev StreamTime := BitVec 33

/-- A reading of the 33-bit local tick counter (R17). -/
abbrev Tick := BitVec 33

/-- A 32-bit mask of a cohort: bit i stands for member i (spec 0.6.3). -/
abbrev MemberMask := BitVec 32

/-- A match slot, 0 to 15 (spec 0.6.4). -/
abbrev SlotId := Fin 16

/-- A value for each of the sixteen match slots. -/
abbrev PerSlot (α : Type) := Vector α 16

/-- The slots "in slot order" (spec 0.6.4). -/
def slotList : List SlotId := [0, 1, 2, 3, 4, 5, 6, 7, 8, 9, 10, 11, 12, 13, 14, 15]

/-- The members of a cohort, 0 to 31 in order (spec 0.6.3). -/
def memberList : List (Fin 32) :=
  [0, 1, 2, 3, 4, 5, 6, 7, 8, 9, 10, 11, 12, 13, 14, 15, 16, 17, 18, 19, 20, 21, 22, 23, 24, 25, 26, 27, 28, 29, 30, 31]

/-- The largest cohort number plus one (spec 0.6.3). -/
def cohortCount : Nat := 32768

/-- The largest seat number plus one (spec 0.6.3). -/
def seatCount : Nat := 1048576

end Sys2Proof
end

