-- ==== Sys2Proof/Syntax.lean ====
section
/-! DEFINITION. The commands of the VLT-416: one constructor of `Instr` for each row of spec/opcode_table.json, and the
operands that a row of the command channel carries (spec 12.3, 12.4). -/

namespace Sys2Proof

/-- The content of a cohort row, in the order of its load image (R50, spec 12.4). -/
structure RowImage where
  region : Vector (BitVec 8) 32
  purchase : Vector (BitVec 32) 16
  suspend : BitVec 32
deriving DecidableEq, Repr

/-- The content of a seat record, in the order of its load image; bit 0 of the sat byte is the sat mark (spec 12.4, R180). -/
structure RecordImage where
  credit : BitVec 16
  paid : Vector (BitVec 16) 16
  sat : BitVec 8
deriving DecidableEq, Repr

/-- A match record as DEFINE MATCH carries it, before its checks: fields as wide as their bytes (spec 12.4, R32). -/
structure MatchImage where
  matchId : BitVec 32
  pidCount : Nat
  pids : Vector Nat 4
  wordPid : Nat
  saleOpen : Nat
  earlyClose : Nat
  showStart : Nat
  previewLen : Nat
  scheduledLen : Nat
  lateCutoff : Nat
  overrunMax : Nat
  endHold : Nat
  earlyPrice : Nat
  standardPrice : Nat
  lateFloor : Nat
  failPolicy : Nat
  blackout : BitVec 256
deriving DecidableEq, Repr

/-- What an assertion of RESETN that was not preceded by hold cut short (R64 note, R167). -/
inductive Cut where
  /-- nothing: it fell between two writes, or after hold had settled them -/
  | nothing
  /-- a write of retained content, leaving the retained check word wrong (R167) -/
  | retainedWrite
  /-- a write of the attached DRAM, leaving its content undefined (R64 note) -/
  | storeWrite
deriving DecidableEq, Repr

/-- The operations and events of the VLT-416, one constructor a row of spec/opcode_table.json. The rows from
`defineMatch` to `restart` each stand for one unit (R161) of the command in execution and carry that unit's fields. -/
inductive Instr where
  /-- SYNC_CANDIDATE: a byte received in HUNT or CHECK (R1), or a byte in LOCKED that ends a silence (R2) -/
  | syncCandidate (b : BitVec 8)
  /-- CHECK_SILENCE_TIMEOUT: 10 ms without a byte in CHECK (R1) -/
  | checkSilenceTimeout
  /-- LOCKED_SILENCE_TIMEOUT: 10 ms without a byte in LOCKED (R2) -/
  | lockedSilenceTimeout
  /-- PACKET_TAKEN: the 188th byte of a packet is received in LOCKED (R2, R9, R10) -/
  | packetTaken (p : List (BitVec 8))
  /-- FILL_SLOT: a fill slot is created (R11) -/
  | fillSlot
  /-- FREE_SLOT: the Insertion Arbiter takes a free slot (R146) -/
  | freeSlot
  /-- GRANT_MESSAGE_EMITTED: the last byte of a grant message has been sent (R133) -/
  | grantMessageEmitted
  /-- REPORT_PACKET_EMITTED: the last byte of a report packet has been sent (R172) -/
  | reportPacketEmitted
  /-- SWEEP_STEP: the builder takes a cohort step (R130) -/
  | sweepStep
  /-- STREAM_TIME_ADVANCE: the Match Table evaluates every running slot (R37) -/
  | streamTimeAdvance
  /-- HOLDOVER_ENTERED: the holdover timer reaches its limit in TRACKING (R23) -/
  | holdoverEntered
  /-- CANDIDATE_TIMEOUT: the timer reaches its limit in HOLDOVER (R23) -/
  | candidateTimeout
  /-- CRYPTO_PERIOD_BOUNDARY: the period timer reaches the length of the period (R26) -/
  | cryptoPeriodBoundary
  /-- SWEEP_AGE_INCREMENT: a further 90,000 local ticks of slot m's rollover have been counted (R120) -/
  | sweepAgeIncrement (m : Fin 16)
  /-- WORD_MESSAGE_TIMER_EXPIRY: slot m's repeat timer expires (R125, R147) -/
  | wordMessageTimerExpiry (m : Fin 16)
  /-- STATUS_TIMER_EXPIRY: the status timer reaches the Status Interval (R148) -/
  | statusTimerExpiry
  /-- PACE_TIMER_EXPIRY: the pace timer reaches the Grant Pace (R150) -/
  | paceTimerExpiry
  /-- WALK_START: the walk at the head of the Walk Queue begins (R66) -/
  | walkStart
  /-- CLEAR_WALK_STEP: one cohort step of the CLEAR walk (R60) -/
  | clearWalkStep
  /-- VERIFY_WALK_STEP: one cohort step of the VERIFY walk (R62) -/
  | verifyWalkStep
  /-- WIPE_WALK_STEP: one cohort step of a WIPE walk (R68) -/
  | wipeWalkStep
  /-- REFUND_WALK_STEP: one cohort step of a REFUND walk (R69) -/
  | refundWalkStep
  /-- COMMAND_START: the command at the head of the Command Queue starts (R159, R160) -/
  | commandStart
  /-- DEFINE_MATCH (R32) -/
  | defineMatch (slot : Nat) (img : MatchImage)
  /-- COMMIT_SCHEDULE: one slot of the mask (R33) -/
  | commitSchedule (m : Fin 16)
  /-- READ_MATCH (R45) -/
  | readMatch (slot : Nat)
  /-- FINAL_WHISTLE (R39) -/
  | finalWhistle (slot : Nat)
  /-- ABANDON_MATCH (R40) -/
  | abandonMatch (slot : Nat)
  /-- CLEAR_SLOT (R42) -/
  | clearSlot (slot : Nat)
  /-- SET_BLACKOUT: operation 0 ADD, 1 REMOVE (R44, spec 12.3) -/
  | setBlackout (slot : Nat) (op : Nat) (regions : List (BitVec 8))
  /-- FORCE_ROLLOVER (R113) -/
  | forceRollover (slot : Nat)
  /-- PURCHASE: one item, mode 0 NORMAL, 1 COMP (R84, spec 12.3) -/
  | purchase (seat : Nat) (slot : Nat) (mode : Nat)
  /-- REFUND: one item (R89) -/
  | refund (seat : Nat) (slot : Nat)
  /-- WITHDRAW: one item (R90) -/
  | withdraw (seat : Nat) (slot : Nat)
  /-- SUSPEND: one item (R93) -/
  | suspend (seat : Nat)
  /-- RESUME: one item (R94) -/
  | resume (seat : Nat)
  /-- SET_REGION: one item (R95) -/
  | setRegion (seat : Nat) (region : BitVec 8)
  /-- TOP_UP_CREDIT: one item (R87) -/
  | topUpCredit (seat : Nat) (amount : Nat)
  /-- CLEAR_SEAT_MARKS: one item (R88) -/
  | clearSeatMarks (seat : Nat)
  /-- LOAD_COHORT_ROW (R71) -/
  | loadCohortRow (cohort : Nat) (row : RowImage)
  /-- LOAD_SEAT_RECORDS: one item (R72) -/
  | loadSeatRecords (seat : Nat) (rec : RecordImage)
  /-- QUERY_SEAT (R73) -/
  | querySeat (seat : Nat)
  /-- READ_POISON_LIST (R55) -/
  | readPoisonList
  /-- CLEAR_STORE (R70) -/
  | clearStore
  /-- ADD_HOUSE_SEAT (R57) -/
  | addHouseSeat (seat : Nat)
  /-- REMOVE_HOUSE_SEAT (R58) -/
  | removeHouseSeat (seat : Nat)
  /-- READ_HOUSE_LIST (R59) -/
  | readHouseList
  /-- SET_PID_CLASS: one item, class 0 PASS, 1 DROP (R6, spec 12.3) -/
  | setPidClass (pid : Nat) (cls : Nat)
  /-- SET_SETTINGS: pairs of a setting's position and a value (R163, spec 12.3) -/
  | setSettings (pairs : List (Nat × Nat))
  /-- READ_SETTINGS (R164) -/
  | readSettings
  /-- SET_ROOT_KEY: the wrapped root key, 32 bytes (R165) -/
  | setRootKey (wrapped : BitVec 256)
  /-- RELEASE_FAULT (R176) -/
  | releaseFault
  /-- CLEAR_STATUS_MARKS (R174) -/
  | clearStatusMarks
  /-- RESTART (R168) -/
  | restart
  /-- HOLD_ENTRY: assertion of PWARN (R167) -/
  | holdEntry
  /-- RETAINED_CHECK_CONFIRMED: steps 4 and 5 of hold, with the level of PWARN when step 5 is reached (R167, R168) -/
  | retainedCheckConfirmed (pwarn : Bool)
  /-- RESTART_SELF_RESET: the part's own reset after RESTART (R168) -/
  | restartSelfReset
  /-- RESETN: assertion of RESETN, with what it cut short (R75, R167) -/
  | resetn (cut : Cut)
  /-- VBAK_LOSS: VBAK falls below the retention level; `spoiled` says that the retained check word no longer holds (R75) -/
  | vbakLoss (spoiled : Bool)
  /-- MAIN_SUPPLY_LOSS; `spoiled` says that it cut a retained write short (R64 note, R167) -/
  | mainSupplyLoss (spoiled : Bool)
deriving DecidableEq, Repr

end Sys2Proof
end

