-- ==== Sys2Proof/Decode.lean ====
section
/-! DEFINITION. The command a word of the table spells. No row of spec/opcode_table.json gives bits, so no word spells one. The
byte layouts of chapter 12 are read and written in Machine/StreamPath.lean, CommandBody.lean and Formats.lean. -/

namespace Sys2Proof

/-- The command that the low `nbits` bits `w` spell by the table's bits: none, since no row gives bits. -/
def decodeTableWord (_nbits _w : Nat) : Option Instr := none

end Sys2Proof
end

