-- ==== Sys2Proof/Machine/Bytes.lean ====
section
/-! DEFINITION. Byte order and bit fields: multi-byte values stand most significant byte first (spec 12). -/

namespace Sys2Proof.Machine

/-- The number that bytes spell, most significant byte first. -/
def beNat (l : List (BitVec 8)) : Nat := l.foldl (fun acc b => acc * 256 + b.toNat) 0

/-- The low n bytes of a number, most significant byte first. -/
def beBytes : Nat → Nat → List (BitVec 8)
  | 0, _ => []
  | n + 1, v => BitVec.ofNat 8 (v / 256 ^ n) :: beBytes n v

/-- A flag as one byte (spec 12.6). -/
def flagByte (b : Bool) : BitVec 8 := if b then 1 else 0

/-- The bytes at an offset, as many as asked or as there are. -/
def bytesAt (l : List (BitVec 8)) (off n : Nat) : List (BitVec 8) := (l.drop off).take n

/-- The number that the n bytes at an offset spell. -/
def numAt (l : List (BitVec 8)) (off n : Nat) : Nat := beNat (bytesAt l off n)

/-- The byte at an offset, 0 past the end. -/
def byteAt (l : List (BitVec 8)) (off : Nat) : BitVec 8 := l.getD off 0

/-- Consecutive groups of n bytes, k of them. -/
def groups (n : Nat) : Nat → List (BitVec 8) → List (List (BitVec 8))
  | 0, _ => []
  | k + 1, l => l.take n :: groups n k (l.drop n)

/-- Evaluates a number before it is used: equal to `k c` (`forceNat_eq`). -/
def forceNat {α : Type} (c : Nat) (k : Nat → α) : α :=
  match c with
  | 0 => k 0
  | n + 1 => k (n + 1)

/-- Increment of a counter that saturates at 65,535 (R10, R68, R114, R120, R174). -/
def satInc (n : Nat) : Nat := if n < 65535 then n + 1 else n

end Sys2Proof.Machine
end

