-- ==== Sys2Proof/Machine/Sparse.lean ====
section
/-! DEFINITION. Sparse storage: a list of (key, value) pairs in one canonical form, keys strictly rising and no value equal
to what an unlisted key reads as. The PID Map, the continuity counters and the attached DRAM are held so. -/

namespace Sys2Proof.Machine

/-- The value at key k, `d` where k is not listed. -/
def sparseGet {α : Type} (d : α) : List (Nat × α) → Nat → α
  | [], _ => d
  | (j, v) :: rest, k => if j = k then v else sparseGet d rest k

/-- The list without key k. -/
def sparseErase {α : Type} : List (Nat × α) → Nat → List (Nat × α)
  | [], _ => []
  | (j, v) :: rest, k => if j = k then rest else if k < j then (j, v) :: rest else (j, v) :: sparseErase rest k

/-- The list with v at key k, kept rising. -/
def sparseInsert {α : Type} : List (Nat × α) → Nat → α → List (Nat × α)
  | [], k, v => [(k, v)]
  | (j, w) :: rest, k, v =>
    if j = k then (k, v) :: rest else if k < j then (k, v) :: (j, w) :: rest else (j, w) :: sparseInsert rest k v

/-- A write: the value an unlisted key reads as removes the entry, any other is inserted. -/
def sparseSet {α : Type} [DecidableEq α] (d : α) (l : List (Nat × α)) (k : Nat) (v : α) : List (Nat × α) :=
  if v = d then sparseErase l k else sparseInsert l k v

/-- Every key is above `low` and the keys rise strictly. -/
def sparseRising {α : Type} : Option Nat → List (Nat × α) → Bool
  | _, [] => true
  | low, (j, _) :: rest => (match low with | none => true | some i => decide (i < j)) && sparseRising (some j) rest

/-- The canonical form. -/
def sparseWf {α : Type} [DecidableEq α] (d : α) (l : List (Nat × α)) : Bool :=
  sparseRising none l && l.all (fun p => decide (p.2 ≠ d))

/-- A list of writes applied in order to an empty store, keys at or above `bound` left out. -/
def sparseOf {α : Type} [DecidableEq α] (d : α) (bound : Nat) (l : List (Nat × α)) : List (Nat × α) :=
  l.foldl (fun acc p => if p.1 < bound then sparseSet d acc p.1 p.2 else acc) []

end Sys2Proof.Machine
end

