-- ==== Sys2Proof/Config.lean ====
section
/-! DEFINITION. What a VLT-416 fixes and the manual does not give: the opaque functions of spec 0.4, and the free values
of the assumption log. None has a body, so nothing can be proved of a value of theirs. -/

namespace Sys2Proof

/-- A field of a command body that a check can name in a RESULT (R32, R160, R162). -/
inductive FieldName where
  | guardKind | guardSlot | guardValue
  | slot | matchId | pidCount | servicePid (i : Fin 4) | wordPid
  | saleOpen | earlyClose | showStart
  | previewLen | scheduledLen | lateCutoff | overrunMax | endHold
  | failPolicy | operation
  /-- the pair of SET SETTINGS at this place, from 0 (R163) -/
  | pair (i : Nat)
deriving DecidableEq, Repr

namespace Config

/-- The unit key fixed at board build through KEYLD (R169; its width is a DESIGN CHOICE, notes/assumptions/12.md). -/
opaque unitKey : BitVec 128

/-- The check-word function of the unit key and the body bytes before the check word (spec 10.1). -/
opaque checkWord : BitVec 128 → List (BitVec 8) → BitVec 64

/-- The key unwrap under the unit key: a 16-byte key and whether the verdict is intact (R165). -/
opaque unwrapKey : BitVec 128 → BitVec 256 → BitVec 128 × Bool

/-- The bits of the value the random generator gave at its n-th draw (R109). -/
opaque drawBits : Nat → BitVec 128

/-- The wrap transform: root key, cohort, match id, epoch key (R107). -/
opaque wrapKey : BitVec 128 → Nat → BitVec 32 → BitVec 128 → BitVec 128

/-- The word wrap: epoch key, match id, epoch number, control word (R124). -/
opaque wrapWord : BitVec 128 → BitVec 32 → BitVec 16 → BitVec 128 → BitVec 128

/-- Byte i of the scramble transform's output for a control word and a payload (spec 1.6). -/
opaque scrambleByte : BitVec 128 → List (BitVec 8) → Nat → BitVec 8

/-- The detail byte of a BAD_FIELD refusal for a failing field: its numbering is not stated (notes/assumptions/13.md). -/
opaque fieldPosition : FieldName → BitVec 8

/-- The five bytes of a signed distance in a report: their coding is not stated (notes/assumptions/14.md). -/
opaque signedContent : Int → BitVec 40

/-- What the cohort rows of the DRAM hold (cohort, content, digest) after their n-th loss (notes/assumptions/8.md). -/
opaque lostRows : Nat → List (Nat × RowImage × BitVec 32)

/-- What the seat records of the DRAM hold (seat, content, digest) after their n-th loss (notes/assumptions/8.md). -/
opaque lostRecords : Nat → List (Nat × RecordImage × BitVec 32)

/-- Where the i-th event of one REFCLK period falls among those before it (notes/assumptions/4.md). -/
opaque tieBreak : Nat → Nat → Nat

end Config
end Sys2Proof
end

