-- ==== Sys2Proof/Machine/State.lean ====
section
/-! DEFINITION. The state of the VLT-416, block by block (spec 0.3), as plain data, and the state right after a COLD reset.
Each block's reset values stand in that block's chapter (R16, R29, R49, R75, R128, R145, R155, R169, R177). -/

namespace Sys2Proof.Machine

/-! ## Stream path -/

/-- Lock state (spec 1.1). -/
inductive LockState where
  | hunt | check | locked
deriving DecidableEq, Repr

/-- Class of an identifier in the PID Map (spec 1.2). -/
inductive PidClass where
  | pass | drop | service (m : SlotId) | control | ownedReport | ownedGrant | ownedWord (m : SlotId) | null
deriving DecidableEq, Repr

/-- Input Fill's progress (R11): REFCLK periods since fill began or since the slot at which the Fill Rate last changed,
slots created since then, and periods since the last slot. -/
structure FillState where
  elapsed : Nat
  created : Nat
  sinceLast : Nat
deriving DecidableEq, Repr

/-- Stream Input Unit (spec 1.1, 1.2, 1.5). The PID Map lists what is not PASS, the counters what is not 0. -/
structure Siu where
  lock : LockState
  syncCount : Nat
  badSyncs : Nat
  toNextStart : Nat
  silentTicks : Nat
  lossFlag : Bool
  inputLostSeen : Bool
  pidMap : List (Nat × PidClass)
  continuity : List (Nat × BitVec 4)
  fill : FillState
deriving DecidableEq, Repr

/-! ## Timebase -/

/-- Timebase state (spec 2.2). -/
inductive TimebaseState where
  | noTime | tracking | holdover
deriving DecidableEq, Repr

/-- The adopted value and the adoption stamp (spec 2.2). -/
structure Adoption where
  value : StreamTime
  tick : Tick
deriving DecidableEq, Repr

/-- The candidate reference: its value, the tick at which it was taken, its count (spec 2.2, R22). -/
structure Candidate where
  value : StreamTime
  tick : Tick
  count : Nat
deriving DecidableEq, Repr

/-- Timebase (spec 2.1, 2.2, 2.6). `holdoverSince` is the tick of the last reference taken while the holdover timer runs. -/
structure Tbu where
  refDivider : Nat
  tick : Tick
  state : TimebaseState
  adoption : Option Adoption
  candidate : Option Candidate
  holdoverSince : Option Tick
  holdoverSeen : Bool
  periodTimer : Nat
  periodLength : Nat
deriving DecidableEq, Repr

/-! ## Match Table -/

/-- The ten slot states, coded from 0 in this order (R160, spec 12.6). -/
inductive SlotState where
  | empty | scheduled | onSale | preview | live | extended | ended | abandoned | closed | wiping
deriving DecidableEq, Repr

/-- Fail policy (R101). -/
inductive FailPolicy where
  | openPolicy | closedPolicy
deriving DecidableEq, Repr

/-- A match record that has passed the checks of DEFINE MATCH (spec 3.1, R32). -/
structure MatchRecord where
  matchId : BitVec 32
  servicePids : List Nat
  wordPid : Nat
  saleOpen : StreamTime
  earlyClose : StreamTime
  showStart : StreamTime
  previewLen : Nat
  scheduledLen : Nat
  lateCutoff : Nat
  overrunMax : Nat
  endHold : Nat
  earlyPrice : Nat
  standardPrice : Nat
  lateFloor : Nat
  failPolicy : FailPolicy
  blackout : BitVec 256
deriving DecidableEq, Repr

/-- One slot of the Match Table: its state, live record, staged record and end mark (spec 3.1, R31). -/
structure MatchSlot where
  state : SlotState
  live : Option MatchRecord
  staged : Option MatchRecord
  endMark : Option StreamTime
deriving DecidableEq, Repr

/-- Cause of a change of slot state, coded from 0 in this order (R46, spec 12.6). -/
inductive StateCause where
  | commit | time | whistle | abandon | clear | walkEnd | walkCut
deriving DecidableEq, Repr

/-! ## Epoch Controller -/

/-- A value drawn from the random generator, known by the number of its draw: each draw gives a new value (R109). -/
structure Drawn where
  serial : Nat
deriving DecidableEq, Repr

/-- The 128 bits of a drawn key or control word, which the wrap and scramble transforms take. -/
abbrev Drawn.bits (d : Drawn) : BitVec 128 := Config.drawBits d.serial

/-- Rollover state (spec 7.1). -/
inductive RolloverState where
  | steady | pending | sweeping | switching
deriving DecidableEq, Repr

/-- Rollover cause (R117, R126). -/
inductive RolloverCause where
  | notice | redo | lifetime
deriving DecidableEq, Repr

/-- Control word phase (spec 7.1). -/
inductive Phase where
  | even | odd
deriving DecidableEq, Repr

/-- The epoch record of a slot (spec 7.1, R109). -/
structure EpochRecord where
  epoch : BitVec 16
  currentKey : Drawn
  issued : Bool
  rollover : RolloverState
  pendingKey : Option Drawn
  passesLeft : Nat
  sweepAge : Nat
  redo : Bool
  evenWord : Drawn
  oddWord : Drawn
  phase : Phase
  epochAge : Nat
  cause : Option RolloverCause
deriving DecidableEq, Repr

/-- One slot of the Epoch Controller: its record, and the volatile local ticks counted since the sweep age rose (R120). -/
structure EpochSlot where
  record : Option EpochRecord
  ageTicks : Nat
deriving DecidableEq, Repr

/-! ## Seat Store -/

/-- A cohort row as it stands in the DRAM: content and stored digest (R50). -/
structure StoredRow where
  content : RowImage
  digest : BitVec 32
deriving DecidableEq, Repr

/-- A seat record as it stands in the DRAM: content and stored digest (R50). -/
structure StoredRecord where
  content : RecordImage
  digest : BitVec 32
deriving DecidableEq, Repr

/-- Kind of a stored item (spec 4.1.1). -/
inductive ItemKind where
  | row | seat
deriving DecidableEq, Repr

/-- An entry of the Poison List (spec 4.1.1). -/
structure PoisonEntry where
  kind : ItemKind
  index : Nat
deriving DecidableEq, Repr

/-- Store state, coded from 0 in this order (spec 4.4, 12.6). -/
inductive StoreState where
  | clearing | verifying | ready | failed
deriving DecidableEq, Repr

/-- Kind of a walk (spec 4.5). -/
inductive WalkKind where
  | clear | verify | wipe (m : SlotId) | refund (m : SlotId)
deriving DecidableEq, Repr

/-- The walk under way: the next cohort to step and the skip counts so far (R66 to R69). -/
structure Walk where
  kind : WalkKind
  cohort : Nat
  rowSkips : Nat
  seatSkips : Nat
deriving DecidableEq, Repr

/-- A walk waiting in the Walk Queue: WIPE (`refund` false) or REFUND of a slot (spec 4.5). -/
structure QueuedWalk where
  refund : Bool
  slot : SlotId
deriving DecidableEq, Repr

/-- Seat Store (chapter 4). Rows and records list, in rising order, what is not the cleared item. -/
structure Sst where
  rows : List (Nat × StoredRow)
  records : List (Nat × StoredRecord)
  poison : List PoisonEntry
  house : List Nat
  signature : BitVec 32
  store : StoreState
  accumulator : BitVec 32
  walk : Option Walk
  walkQueue : List QueuedWalk
  selfRefresh : Bool
deriving DecidableEq, Repr

/-! ## Grant Carousel and output -/

/-- A grant entry, complete as built (spec 6.7, R105). -/
structure GrantEntry where
  cohort : Nat
  slot : SlotId
  matchId : BitVec 32
  epoch : BitVec 16
  mask : MemberMask
  wrapped : BitVec 128
deriving DecidableEq, Repr

/-- An entry of the Fresh Queue (R135). -/
structure FreshPair where
  cohort : Nat
  slot : SlotId
  left : Nat
deriving DecidableEq, Repr

/-- The ready sweep packet, with its pass-end mark (spec 8.1). -/
structure SweepPacket where
  entries : List GrantEntry
  passEnd : Bool
deriving DecidableEq, Repr

/-- Grant Carousel (spec 8.1). `building` is the fresh packet being built, empty between steps (R112, R136). -/
structure Gcr where
  pointer : Nat
  buffer : List GrantEntry
  closing : Bool
  ready : Option SweepPacket
  fresh : List FreshPair
  building : List GrantEntry
deriving DecidableEq, Repr

/-- Where a free slot came from (spec 9.2). -/
inductive FreeSource where
  | inputNull (p : List (BitVec 8))
  | removed
  | badSync
  | fill
deriving DecidableEq, Repr

/-- A position of the output sequence that has not begun: a forwarded packet, or a free slot (R9). -/
inductive OutPosition where
  | packet (p : List (BitVec 8))
  | free (src : FreeSource)
deriving DecidableEq, Repr

/-- What is told at the emission of the packet in transmission: nothing, the command numbers of the RESULTs it carries
(R172), the entries and pass-end mark of a sweep packet, or the entries and pairs of a fresh packet (R133). -/
inductive Emission where
  | quiet
  | report (results : List (BitVec 32))
  | sweep (entries : List GrantEntry) (passEnd : Bool)
  | fresh (entries : List GrantEntry) (pairs : List FreshPair)
deriving DecidableEq, Repr

/-- The packet in transmission (spec 8.1, R146). -/
structure Sending where
  bytes : List (BitVec 8)
  emission : Emission
deriving DecidableEq, Repr

/-- The output side: positions not yet begun, the packet in transmission, and the model's own record of what has been sent
on Stream Out, oldest first (notes/assumptions/6.md). -/
structure OutPath where
  positions : List OutPosition
  sending : Option Sending
  sent : List (List (BitVec 8))
deriving DecidableEq, Repr

/-! ## Insertion Arbiter -/

/-- Word Message state of a slot: the tick at which its due was set, and the repeat timer's ticks since its last expiry. -/
structure WordTimer where
  due : Option Tick
  timer : Option Nat
deriving DecidableEq, Repr

/-- Insertion Arbiter (spec 9.1). -/
structure Ina where
  words : PerSlot WordTimer
  statusDue : Bool
  statusTimer : Nat
  credits : Nat
  paceTimer : Option Nat
  freshRun : Nat
deriving DecidableEq, Repr

/-! ## Command Unit and settings -/

/-- Input Fill setting (R12). -/
inductive FillMode where
  | null | flood
deriving DecidableEq, Repr

/-- The nineteen settings, in the order and units of the table of spec 10.6. -/
structure Settings where
  cryptoPeriod : Nat
  wordInterval : Nat
  grantPace : Nat
  freshRunLimit : Nat
  freshRepeats : Nat
  rolloverPasses : Nat
  rushThreshold : Nat
  rolloverDeadline : Nat
  epochLifetime : Nat
  creditCap : Nat
  holdoverLimit : Nat
  statusInterval : Nat
  inputFill : FillMode
  fillRate : Nat
  activeCohorts : Nat
  controlPid : Nat
  reportPid : Nat
  grantPid : Nat
  clockPid : Nat
deriving DecidableEq, Repr

/-- The Default column of spec 10.6. -/
def Settings.default : Settings :=
  { cryptoPeriod := 10, wordInterval := 100, grantPace := 20, freshRunLimit := 4, freshRepeats := 2, rolloverPasses := 2,
    rushThreshold := 120, rolloverDeadline := 600, epochLifetime := 0, creditCap := 65535, holdoverLimit := 500,
    statusInterval := 1000, inputFill := .flood, fillRate := 40000, activeCohorts := 32768, controlPid := 0x1FF0,
    reportPid := 0x1FF1, grantPid := 0x1FF2, clockPid := 0x0100 }

/-- Item codes, numbered from 0 in this order (spec 12.6). -/
inductive ItemCode where
  | done | capped | clamped | cured | already | alreadyHeld | notHeld | duplicate | listFull | badField | outOfRange
  | storeNotReady | storeFailed | rowPoisoned | slotNotActive | notOnSale | saleClosed | suspended | blackedOut | noTime
  | noCredit | notStaged | badTimes | pidConflict | fixedField | tooLate | pidReserved
deriving DecidableEq, Repr

/-- A code of a RESULT with its value, 0 where its rule names none (R162). -/
structure CodeValue where
  code : ItemCode
  value : Nat
deriving DecidableEq, Repr

/-- Result of a command, coded from 0 in this order (spec 12.6). -/
inductive CommandResult where
  | taken | skipped | stale | badKind | badLength | refused
deriving DecidableEq, Repr

/-- Reason of a refusal, coded from 0 in this order (spec 12.6). -/
inductive RefusalReason where
  | none | wrongState | badField | pidConflict | badKey
deriving DecidableEq, Repr

/-- Detail of a RESULT: the failing field of a BAD_FIELD refusal, or the regions changed by SET BLACKOUT (spec 12.6). -/
inductive ResultDetail where
  | none | field (f : FieldName) | regions (n : Nat)
deriving DecidableEq, Repr

/-- A command in the Command Queue: its number and its body as it arrived (R158). -/
structure QueuedCommand where
  number : BitVec 32
  body : List (BitVec 8)
deriving DecidableEq, Repr

/-- The command in execution: its units still to take, each as the row that stands for it, and its codes so far (R161). -/
structure Executing where
  number : BitVec 32
  kind : BitVec 8
  quiet : Bool
  unitCount : Nat
  todo : List Instr
  codes : List CodeValue
deriving DecidableEq, Repr

/-- End-method of the progress record, coded from 0 in this order (spec 10.8). -/
inductive EndMethod where
  | none | notStarted | prefixSafe | prefixUnsafe | complete
deriving DecidableEq, Repr

/-- The progress record (spec 10.8). -/
structure Progress where
  number : BitVec 32
  kind : BitVec 8
  unitCount : Nat
  unitsApplied : Nat
  endMethod : EndMethod
deriving DecidableEq, Repr

/-- Command Unit (chapter 10). -/
structure Cmu where
  lastAccepted : BitVec 32
  queue : List QueuedCommand
  executing : Option Executing
  progress : Progress
  rootKey : BitVec 128
  unitKey : BitVec 128
deriving DecidableEq, Repr

/-! ## Report Unit -/

/-- Class of a fault, coded from 0 in this order (spec 11.4). -/
inductive FaultClass where
  | rowCheck | seatCheck | poisonOverflow | retainedCheck
deriving DecidableEq, Repr

/-- The Fault Record (spec 11.4); bit n of the further marks is the class coded n. -/
structure FaultRecord where
  held : Bool
  cls : FaultClass
  index : Nat
  indexKind : ItemKind
  number : BitVec 32
  units : Nat
  time : StreamTime
  marks : BitVec 4
  further : Nat
deriving DecidableEq, Repr

/-- Every field 0 and the state CLEAR (R176). -/
def FaultRecord.clear : FaultRecord :=
  { held := false, cls := .rowCheck, index := 0, indexKind := .row, number := 0, units := 0, time := 0, marks := 0,
    further := 0 }

/-- Cause of an INPUT LOST report (R3). -/
inductive LossCause where
  | badSync | silence
deriving DecidableEq, Repr

/-- Cause of a warm start (R168). -/
inductive RestartCause where
  | resetn | command
deriving DecidableEq, Repr

/-- A report entry's kind and content (spec 11.1 and the owning rules). -/
inductive ReportBody where
  | result (number : BitVec 32) (kind : BitVec 8) (res : CommandResult) (reason : RefusalReason) (detail : ResultDetail)
      (codes : List CodeValue)
  | readback (number : BitVec 32) (part total : Nat) (data : List (BitVec 8))
  | matchState (slot : SlotId) (matchId : BitVec 32) (left entered : SlotState) (cause : StateCause)
      (endMark : Option StreamTime)
  | rolloverStarted (slot : SlotId) (matchId : BitVec 32) (epoch : BitVec 16) (cause : RolloverCause) (passes : Nat)
  | rolloverDone (slot : SlotId) (matchId : BitVec 32) (epoch : BitVec 16) (age : Nat) (redo : Bool)
  | rolloverForced (slot : SlotId) (matchId : BitVec 32) (epoch : BitVec 16) (age passes : Nat) (redo : Bool)
  | rolloverAbandoned (slot : SlotId) (matchId : BitVec 32) (epoch : BitVec 16) (left : RolloverState)
  | timeAcquired (value : StreamTime)
  | timeJump (d : Int) (left : TimebaseState)
  | holdoverEntered
  | holdoverLeft (d : Int)
  | inputLost (cause : LossCause)
  | inputRegained
  | storeClearing
  | storeVerifying
  | storeReady
  | storeFailed (index : Nat)
  | storeLostMismatch (accumulator signature : BitVec 32)
  | storeLostOverflow (index : Nat) (signature : BitVec 32)
  | wipeDone (slot : SlotId) (rowSkips seatSkips : Nat)
  | refundDone (slot : SlotId) (rowSkips seatSkips : Nat)
  | refundCut (slot : SlotId) (cohort rowSkips seatSkips : Nat)
  | faultFirst (f : FaultRecord)
  | faultFurther (cls : FaultClass) (index : Nat)
  | restart (cause : RestartCause) (lastAccepted : BitVec 32) (progress : Progress)
deriving DecidableEq, Repr

/-- A report entry with its stamp (spec 11.1). -/
structure ReportEntry where
  stamp : StreamTime
  body : ReportBody
deriving DecidableEq, Repr

/-- The seven status counters (R173). -/
structure Counters where
  checkFailures : Nat
  staleCommands : Nat
  discardedCommands : Nat
  droppedReports : Nat
  ownedCollisions : Nat
  preScrambled : Nat
  transportErrors : Nat
deriving DecidableEq, Repr

/-- All counters 0. -/
def Counters.zero : Counters :=
  { checkFailures := 0, staleCommands := 0, discardedCommands := 0, droppedReports := 0, ownedCollisions := 0,
    preScrambled := 0, transportErrors := 0 }

/-- Report Unit (chapter 11). One command executes at a time, so at most one place holds a reservation (R159, R170). -/
structure Rpu where
  entries : List ReportEntry
  reserved : Bool
  counters : Counters
  fault : FaultRecord
deriving DecidableEq, Repr

/-! ## Power and hold -/

/-- Where the part stands: running; in hold with a command that may still complete the unit it has in hand (R167 step 2); in
hold with the Seat Store settled, before the retained check word is confirmed (step 3); in hold after that, waiting for a
reset (steps 4 and 5); or stopped by loss of the main supply (R64 note). -/
inductive PartPhase where
  | running | finishing | holding | held | unpowered
deriving DecidableEq, Repr

/-- Power and hold: `restartHold` says that hold was entered for RESTART and `pwarnAtStop` that PWARN was asserted when step 5
was reached (R168), `vbakLost` is the VBAK monitor's mark (R75), `checkHolds` says that the retained check word holds over
the retained content (notes/assumptions/9.md). -/
structure Power where
  phase : PartPhase
  restartHold : Bool
  pwarnAtStop : Bool
  vbakLost : Bool
  checkHolds : Bool
deriving DecidableEq, Repr

/-! ## The whole state -/

/-- The state of the part. `draws` counts the random generator's draws, `frees` numbers the next free value of Config, and
`pending` is the queue of commands that are waiting; the three are the model's own. -/
structure State where
  siu : Siu
  out : OutPath
  tbu : Tbu
  mtb : PerSlot MatchSlot
  epc : PerSlot EpochSlot
  sst : Sst
  gcr : Gcr
  ina : Ina
  cmu : Cmu
  settings : Settings
  rpu : Rpu
  power : Power
  draws : Nat
  frees : Nat
  pending : List Instr
deriving DecidableEq, Repr

/-- No fault stops the part: integrity faults are an effect on State (R175), so this type has no constructor. -/
inductive Fault where
deriving DecidableEq, Repr

/-- Reasons for which a command is refused. -/
inductive Refusal where
  /-- Raised by `exec` alone, for a row without a meaning; no arm of this model raises it. Safe: the run stops. -/
  | notModelled (mnemonic : String)
deriving DecidableEq, Repr

/-- A slot after a COLD reset: EMPTY, no record, no end mark (R49). -/
def MatchSlot.reset : MatchSlot := { state := .empty, live := none, staged := none, endMark := none }

/-- No epoch record (R128). -/
def EpochSlot.reset : EpochSlot := { record := none, ageTicks := 0 }

/-- No Word Message due, timer stopped (R155). -/
def WordTimer.stopped : WordTimer := { due := none, timer := none }

/-- Stream path after a COLD reset (R5, R16). -/
def Siu.reset : Siu :=
  { lock := .hunt, syncCount := 0, badSyncs := 0, toNextStart := 0, silentTicks := 0, lossFlag := false,
    inputLostSeen := false,
    pidMap := [(0x1FF0, .control), (0x1FF1, .ownedReport), (0x1FF2, .ownedGrant), (0x1FFF, .null)],
    continuity := [], fill := { elapsed := 0, created := 0, sinceLast := 0 } }

/-- Timebase after a COLD reset (R29). -/
def Tbu.reset : Tbu :=
  { refDivider := 0, tick := 0, state := .noTime, adoption := none, candidate := none, holdoverSince := none,
    holdoverSeen := false, periodTimer := 0, periodLength := 900000 }

/-- Seat Store after a COLD reset: CLEARING, the CLEAR walk at cohort 0 (R60, R75); the scan accumulator, which R75 does not use
there, is 0 (notes/assumptions/35.md). -/
def Sst.reset : Sst :=
  { rows := [], records := [], poison := [], house := [], signature := 0, store := .clearing, accumulator := 0,
    walk := some { kind := .clear, cohort := 0, rowSkips := 0, seatSkips := 0 }, walkQueue := [], selfRefresh := false }

/-- Grant Carousel after every reset (R145). -/
def Gcr.reset : Gcr := { pointer := 0, buffer := [], closing := false, ready := none, fresh := [], building := [] }

/-- Insertion Arbiter after a COLD reset (R155). -/
def Ina.reset : Ina :=
  { words := Vector.replicate 16 WordTimer.stopped, statusDue := false, statusTimer := 0, credits := 0,
    paceTimer := some 0, freshRun := 0 }

/-- Progress record after a COLD reset: NONE, fields 0 (R166). -/
def Progress.reset : Progress := { number := 0, kind := 0, unitCount := 0, unitsApplied := 0, endMethod := .none }

/-- Command Unit after a COLD reset (R169). -/
def Cmu.reset : Cmu :=
  { lastAccepted := 0, queue := [], executing := none, progress := Progress.reset, rootKey := 0,
    unitKey := Config.unitKey }

/-- Report Unit after a COLD reset without a failed retained check: the start has queued STORE CLEARING (R60, R177). -/
def Rpu.reset : Rpu :=
  { entries := [{ stamp := 0, body := .storeClearing }], reserved := false, counters := Counters.zero,
    fault := FaultRecord.clear }

/-- Power and hold after a COLD reset. -/
def Power.reset : Power :=
  { phase := .running, restartHold := false, pwarnAtStop := false, vbakLost := false, checkHolds := true }

/-- The part right after a COLD reset (COLD columns of R16, R29, R49, R75, R128, R145, R155, R169, R177). -/
def State.reset : State :=
  { siu := Siu.reset, out := { positions := [], sending := none, sent := [] }, tbu := Tbu.reset,
    mtb := Vector.replicate 16 MatchSlot.reset, epc := Vector.replicate 16 EpochSlot.reset, sst := Sst.reset,
    gcr := Gcr.reset, ina := Ina.reset, cmu := Cmu.reset, settings := Settings.default, rpu := Rpu.reset,
    power := Power.reset, draws := 0, frees := 0, pending := [] }

end Sys2Proof.Machine
end

