-- ==== Sys2Proof/Machine/Digest.lean ====
section
/-! DEFINITION. The digest of stored items (R50) and the items' stored byte order (spec 12.4). -/

namespace Sys2Proof.Machine

/-- One bit of the CRC register's division by 0x04C11DB7, most significant bit first (R50). -/
def crcBit (c : Nat) : Nat := if c.testBit 31 then (2 * c % 4294967296) ^^^ 0x04C11DB7 else 2 * c

/-- One byte fed into the CRC register, most significant bit first (R50). -/
def crcByte (c : Nat) (b : BitVec 8) : Nat :=
  crcBit (crcBit (crcBit (crcBit (crcBit (crcBit (crcBit (crcBit (c ^^^ (b.toNat <<< 24)))))))))

/-- The CRC register after the bytes. -/
def crcBytes (c : Nat) : List (BitVec 8) → Nat
  | [] => c
  | b :: bs => forceNat (crcByte c b) fun c' => crcBytes c' bs

/-- The 32-bit CRC of R50: register initialised to all ones, no reflection, final value inverted. -/
def crc32 (l : List (BitVec 8)) : BitVec 32 := BitVec.ofNat 32 (4294967295 - crcBytes 4294967295 l)

/-- A cohort row's 100 content bytes in stored order (spec 12.4). -/
def rowBytes (r : RowImage) : List (BitVec 8) :=
  r.region.toList ++ r.purchase.toList.flatMap (fun p => beBytes 4 p.toNat) ++ beBytes 4 r.suspend.toNat

/-- A seat record's 35 content bytes in stored order (spec 12.4). -/
def recordBytes (r : RecordImage) : List (BitVec 8) :=
  beBytes 2 r.credit.toNat ++ r.paid.toList.flatMap (fun p => beBytes 2 p.toNat) ++ [r.sat]

/-- The digest of a row's content (R50). -/
@[irreducible] def rowDigest (r : RowImage) : BitVec 32 := crc32 (rowBytes r)

/-- The digest of a record's content (R50). -/
@[irreducible] def recordDigest (r : RecordImage) : BitVec 32 := crc32 (recordBytes r)

/-- The row content that the CLEAR walk writes (R60). -/
def zeroRow : RowImage := { region := Vector.replicate 32 0, purchase := Vector.replicate 16 0, suspend := 0 }

/-- The record content that the CLEAR walk writes (R60). -/
def zeroRecord : RecordImage := { credit := 0, paid := Vector.replicate 16 0, sat := 0 }

/-- A cleared row; its digest is `rowDigest zeroRow` (`clearedRow_digest`). -/
def clearedRow : StoredRow := { content := zeroRow, digest := 0x53631199 }

/-- A cleared record; its digest is `recordDigest zeroRecord` (`clearedRecord_digest`). -/
def clearedRecord : StoredRecord := { content := zeroRecord, digest := 0xECEA1F90 }

/-- The row of cohort c as it stands in the DRAM. -/
def rowAt (s : State) (c : Nat) : StoredRow := sparseGet clearedRow s.sst.rows c

/-- The record of a seat as it stands in the DRAM. -/
def recordAt (s : State) (seat : Nat) : StoredRecord := sparseGet clearedRecord s.sst.records seat

/-- The memory of the part is in canonical form, within the store's size: DRAM, PID Map and continuity counters. -/
def memoryWf (s : State) : Bool :=
  sparseWf clearedRow s.sst.rows && s.sst.rows.all (fun p => decide (p.1 < cohortCount)) &&
  sparseWf clearedRecord s.sst.records && s.sst.records.all (fun p => decide (p.1 < seatCount)) &&
  sparseWf PidClass.pass s.siu.pidMap && sparseWf (0 : BitVec 4) s.siu.continuity

end Sys2Proof.Machine
end

