-- ==== Sys2Proof/Machine/Time.lean ====
section
/-! DEFINITION. Stream time, its comparison across the wrap, and the times derived from a match record (R18, R19, R30). -/

namespace Sys2Proof.Machine

/-- A duration of n seconds in ticks, modulo 2^33 (spec 0.6.2). -/
def seconds (n : Nat) : StreamTime := BitVec.ofNat 33 (n * 90000)

/-- Stream time T is reached at t: (t − T) mod 2^33 < 2^32 (R19). -/
def reached (T t : StreamTime) : Bool := decide ((t - T).toNat < 4294967296)

/-- The signed distance from T to t, −2^32 to 2^32 − 1 (R19). -/
def signedDistance (T t : StreamTime) : Int := (((t.toNat : Int) - T.toNat + 4294967296) % 8589934592) - 4294967296

/-- "The later of" A and B (R30). -/
def laterOf (A B : StreamTime) : StreamTime := if 0 < signedDistance A B then B else A

/-- Local ticks from reading a to reading b, modulo 2^33 (R17). -/
def ticksBetween (a b : Tick) : Nat := (b - a).toNat

/-- Stream time as the Timebase presents it, absent in NO_TIME (R18). -/
def streamTime (t : Tbu) : Option StreamTime :=
  match t.state, t.adoption with
  | .noTime, _ => none
  | _, none => none
  | _, some a => some (a.value + (t.tick - a.tick))

/-- Stream time now, absent in NO_TIME. -/
def State.now (s : State) : Option StreamTime := streamTime s.tbu

/-- The stamp of a report: stream time, or 0 in NO_TIME (R18). -/
def State.stamp (s : State) : StreamTime := s.now.getD 0

/-- Preview end (R30). -/
def MatchRecord.previewEnd (r : MatchRecord) : StreamTime := r.showStart + seconds r.previewLen

/-- Scheduled end (R30). -/
def MatchRecord.scheduledEnd (r : MatchRecord) : StreamTime := r.showStart + seconds r.scheduledLen

/-- Overrun end (R30). -/
def MatchRecord.overrunEnd (r : MatchRecord) : StreamTime := r.scheduledEnd + seconds r.overrunMax

/-- Latest close (R30). -/
def MatchRecord.latestClose (r : MatchRecord) : StreamTime :=
  r.showStart + seconds (r.scheduledLen + r.overrunMax + r.endHold)

/-- Close time, once the slot holds an end mark (R30). -/
def MatchRecord.closeTime (r : MatchRecord) (endMark : StreamTime) : StreamTime := endMark + seconds r.endHold

/-- The holdover timer's elapsed count has reached Holdover Limit × 90 ticks; false while it does not run (R23). -/
def holdoverElapsed (s : State) : Bool :=
  match s.tbu.holdoverSince with
  | none => false
  | some t => decide (s.settings.holdoverLimit * 90 ≤ ticksBetween t s.tbu.tick)

end Sys2Proof.Machine
end

