-- ==== Sys2Proof/Machine/Slots.lean ====
section
/-! DEFINITION. Access to the sixteen slots, the groups of slot states, and the settings that stand as conditions. -/

namespace Sys2Proof.Machine

/-- A value per slot with slot m's value replaced. -/
def perSlotSet {α : Type} (v : PerSlot α) (m : SlotId) (x : α) : PerSlot α := v.set m.val x m.isLt

/-- Slot m of the Match Table. -/
def State.slot (s : State) (m : SlotId) : MatchSlot := s.mtb.get m

/-- Slot m of the Match Table replaced. -/
def State.setSlot (s : State) (m : SlotId) (x : MatchSlot) : State := { s with mtb := perSlotSet s.mtb m x }

/-- The live record of slot m. -/
def State.live (s : State) (m : SlotId) : Option MatchRecord := (s.slot m).live

/-- Slot m of the Epoch Controller. -/
def State.epochSlot (s : State) (m : SlotId) : EpochSlot := s.epc.get m

/-- Slot m of the Epoch Controller replaced. -/
def State.setEpochSlot (s : State) (m : SlotId) (x : EpochSlot) : State := { s with epc := perSlotSet s.epc m x }

/-- The epoch record of slot m. -/
def State.record (s : State) (m : SlotId) : Option EpochRecord := (s.epochSlot m).record

/-- The epoch record of slot m replaced, its tick count kept. -/
def State.setRecord (s : State) (m : SlotId) (r : EpochRecord) : State :=
  s.setEpochSlot m { s.epochSlot m with record := some r }

/-- Word Message state of slot m. -/
def State.wordTimer (s : State) (m : SlotId) : WordTimer := s.ina.words.get m

/-- Word Message state of slot m replaced. -/
def State.setWordTimer (s : State) (m : SlotId) (x : WordTimer) : State :=
  { s with ina := { s.ina with words := perSlotSet s.ina.words m x } }

/-- The slot a number names, if it is at most 15. -/
def slotOf (n : Nat) : Option SlotId := if h : n < 16 then some ⟨n, h⟩ else none

/-- The granting states: ON_SALE, PREVIEW, LIVE, EXTENDED, ENDED (spec 6.1). -/
def SlotState.granting : SlotState → Bool
  | .onSale | .preview | .live | .extended | .ended => true
  | .empty | .scheduled | .abandoned | .closed | .wiping => false

/-- The states with Word Messages and phase flips: PREVIEW, LIVE, EXTENDED, ENDED (spec 3.4). -/
def SlotState.words : SlotState → Bool
  | .preview | .live | .extended | .ended => true
  | .empty | .scheduled | .onSale | .abandoned | .closed | .wiping => false

/-- The states in which service packets are scrambled: LIVE, EXTENDED, ENDED (R14). -/
def SlotState.onAir : SlotState → Bool
  | .live | .extended | .ended => true
  | .empty | .scheduled | .onSale | .preview | .abandoned | .closed | .wiping => false

/-- The states from which ABANDON MATCH and SET BLACKOUT are taken: SCHEDULED to EXTENDED (R40, R44). -/
def SlotState.beforeEnd : SlotState → Bool
  | .scheduled | .onSale | .preview | .live | .extended => true
  | .empty | .ended | .abandoned | .closed | .wiping => false

/-- Code of a slot state (R160, spec 12.6). -/
def SlotState.code : SlotState → Nat
  | .empty => 0 | .scheduled => 1 | .onSale => 2 | .preview => 3 | .live => 4 | .extended => 5 | .ended => 6
  | .abandoned => 7 | .closed => 8 | .wiping => 9

/-- A rollover is carrying a new key: SWEEPING or SWITCHING (spec 7.1). -/
def RolloverState.rolling : RolloverState → Bool
  | .sweeping | .switching => true
  | .steady | .pending => false

/-- Slot m is in a granting state. -/
def State.granting (s : State) (m : SlotId) : Bool := (s.slot m).state.granting

/-- Slot m is in a granting state with this fail policy. -/
def State.grantingWith (s : State) (f : FailPolicy) (m : SlotId) : Bool :=
  s.granting m && (match s.live m with | some r => decide (r.failPolicy = f) | none => false)

/-- Region code g is in a blackout set (spec 3.1). -/
def inBlackout (set : BitVec 256) (g : BitVec 8) : Bool := set.getLsbD g.toNat

/-- Input packets are handled and free slots are filled: running, or in hold before the confirmation (R155, R167). -/
def State.streaming (s : State) : Bool :=
  match s.power.phase with
  | .running | .finishing | .holding => true
  | .held | .unpowered => false

/-- The Command Unit has a unit in hand or may take one: running, or in hold with a command that has not yet stopped (R167
step 2). -/
def State.taking (s : State) : Bool :=
  match s.power.phase with
  | .running | .finishing => true
  | .holding | .held | .unpowered => false

/-- The supplies are up: REFCLK is divided and local ticks are counted, in hold too (R17). -/
def State.powered (s : State) : Bool := decide (s.power.phase ≠ .unpowered)

/-- The part is running and not in hold. -/
def State.running (s : State) : Bool := decide (s.power.phase = .running)

/-- Input Fill runs: the lock state is HUNT or CHECK (R11). -/
def State.filling (s : State) : Bool := decide (s.siu.lock ≠ .locked)

/-- Flood: fill runs, Input Fill is FLOOD, and the part is not in hold (R12, R155; notes/assumptions/55.md). -/
def State.flood (s : State) : Bool := s.running && s.filling && decide (s.settings.inputFill = .flood)

/-- Slot m is SWEEPING with a sweep age at or past the Rush Threshold (R121). -/
def State.rushing (s : State) (m : SlotId) : Bool :=
  match s.record m with
  | some r => decide (r.rollover = .sweeping) && decide (s.settings.rushThreshold ≤ r.sweepAge)
  | none => false

/-- Rush (R121); it ends with hold, at the entry (R127, R155; notes/assumptions/55.md). -/
def State.rush (s : State) : Bool :=
  s.running && decide (s.settings.rushThreshold ≠ 0) &&
  decide (s.settings.rushThreshold < s.settings.rolloverDeadline) && slotList.any s.rushing

/-- The grant pace is lifted: unpaced, rush or flood (R152). -/
def State.paceLifted (s : State) : Bool := decide (s.settings.grantPace = 0) || s.rush || s.flood

end Sys2Proof.Machine
end

