-- ==== Sys2Proof/Machine/Images.lean ====
section
/-! DEFINITION. The fields of a cohort row and a seat record, and the credit-addition rule (spec 4.1, R85, R180). -/

namespace Sys2Proof

open Sys2Proof.Machine

/-- The mask with bit i alone. -/
def memberBit (i : Fin 32) : MemberMask := 1 <<< i.val

/-- Member i's bit in the purchase mask of slot m. -/
def RowImage.holds (r : RowImage) (m : SlotId) (i : Fin 32) : Bool := (r.purchase.get m).getLsbD i.val

/-- Member i's suspend bit. -/
def RowImage.suspended (r : RowImage) (i : Fin 32) : Bool := r.suspend.getLsbD i.val

/-- A row with the purchase mask of slot m replaced. -/
def RowImage.setPurchase (r : RowImage) (m : SlotId) (mask : MemberMask) : RowImage :=
  { r with purchase := perSlotSet r.purchase m mask }

/-- A row with member i's bit for slot m set. -/
def RowImage.buy (r : RowImage) (m : SlotId) (i : Fin 32) : RowImage := r.setPurchase m (r.purchase.get m ||| memberBit i)

/-- A row with member i's bit for slot m clear. -/
def RowImage.unbuy (r : RowImage) (m : SlotId) (i : Fin 32) : RowImage :=
  r.setPurchase m (r.purchase.get m &&& ~~~ memberBit i)

/-- A row with member i's suspend bit set or clear. -/
def RowImage.setSuspend (r : RowImage) (i : Fin 32) (on : Bool) : RowImage :=
  { r with suspend := if on then r.suspend ||| memberBit i else r.suspend &&& ~~~ memberBit i }

/-- A row with member i's region code replaced. -/
def RowImage.setRegion (r : RowImage) (i : Fin 32) (g : BitVec 8) : RowImage :=
  { r with region := r.region.set i.val g i.isLt }

/-- The credit-addition rule: the new credit, and whether the addition is CAPPED (R85). -/
def addCredit (cap credit amount : Nat) : Nat × Bool :=
  if cap ≤ credit then (credit, decide (0 < amount))
  else if credit + amount ≤ cap then (credit + amount, false)
  else (cap, true)

/-- The sat mark of a record (R180). -/
def RecordImage.satMark (r : RecordImage) : Bool := r.sat.getLsbD 0

/-- A record after an addition to its credit; a capped addition sets the sat mark (R85). -/
def RecordImage.credited (r : RecordImage) (cap amount : Nat) : RecordImage :=
  let x := addCredit cap r.credit.toNat amount
  { r with credit := BitVec.ofNat 16 x.1, sat := if x.2 then r.sat ||| 1 else r.sat }

/-- The paid value of a record for slot m. -/
def RecordImage.paidFor (r : RecordImage) (m : SlotId) : Nat := (r.paid.get m).toNat

/-- A record with slot m's paid value set. -/
def RecordImage.setPaid (r : RecordImage) (m : SlotId) (v : Nat) : RecordImage :=
  { r with paid := perSlotSet r.paid m (BitVec.ofNat 16 v) }

/-- A record after a refund of slot m: paid[m] added to credit by the credit-addition rule and set to 0 (R89, R91). -/
def RecordImage.refunded (r : RecordImage) (cap : Nat) (m : SlotId) : RecordImage :=
  (r.credited cap (r.paidFor m)).setPaid m 0

/-- A record image as it is stored: bits 1 to 7 of the sat byte are 0 (R180). -/
def RecordImage.asStored (r : RecordImage) : RecordImage := { r with sat := r.sat &&& 1 }

end Sys2Proof
end

