-- ==== Sys2Proof/Machine/Reports.lean ====
section
/-! DEFINITION. The Report Queue, the progress record's release, the status counters and the Fault Record (chapter 11). -/

namespace Sys2Proof.Machine

/-- Urgent reports: STORE FAILED, STORE LOST, FAULT, RESTART (spec 11.1). -/
def ReportBody.urgent : ReportBody → Bool
  | .storeFailed _ | .storeLostMismatch _ _ | .storeLostOverflow _ _ | .faultFirst _ | .faultFurther _ _
  | .restart _ _ _ => true
  | .result _ _ _ _ _ _ | .readback _ _ _ _ | .matchState _ _ _ _ _ _ | .rolloverStarted _ _ _ _ _
  | .rolloverDone _ _ _ _ _ | .rolloverForced _ _ _ _ _ _ | .rolloverAbandoned _ _ _ _ | .timeAcquired _
  | .timeJump _ _ | .holdoverEntered | .holdoverLeft _ | .inputLost _ | .inputRegained | .storeClearing
  | .storeVerifying | .storeReady | .wipeDone _ _ _ | .refundDone _ _ _ | .refundCut _ _ _ _ => false

/-- The command a RESULT is the result of; a STALE result is no executed command's (notes/assumptions/19.md). -/
def ReportBody.resultOf : ReportBody → Option (BitVec 32)
  | .result n _ res _ _ _ => if res = .stale then none else some n
  | _ => none

/-- Places of the Report Queue taken by entries and reservations together (spec 11.2). -/
def Rpu.places (r : Rpu) : Nat := r.entries.length + (if r.reserved then 1 else 0)

/-- The routine entry that joined the tail most recently, and the queue without it (R171). -/
def dropLastRoutine : List ReportEntry → Option (ReportEntry × List ReportEntry)
  | [] => none
  | e :: rest =>
    match dropLastRoutine rest with
    | some (x, rest') => some (x, e :: rest')
    | none => if e.body.urgent then none else some (e, rest)

/-- The result of command n has left the Report Queue: the record becomes NONE if it still describes that command (R166). -/
def Progress.release (p : Progress) (n : BitVec 32) : Progress :=
  if p.number = n then { p with endMethod := .none } else p

/-- The progress record released for the command a removed entry was the result of, if any (R166, R171). -/
def Progress.releaseBody (p : Progress) (b : ReportBody) : Progress :=
  match b.resultOf with
  | some n => p.release n
  | none => p

/-- One more dropped report (R171, R173). -/
def Rpu.countDrop (r : Rpu) : Rpu :=
  { r with counters := { r.counters with droppedReports := satInc r.counters.droppedReports } }

/-- A report entry is offered to the Report Queue (R170, R171), stamped as R18 gives. -/
def offer (body : ReportBody) (s : State) : State :=
  let e : ReportEntry := { stamp := s.stamp, body := body }
  if s.rpu.places < 64 then { s with rpu := { s.rpu with entries := s.rpu.entries ++ [e] } }
  else if body.urgent then
    match dropLastRoutine s.rpu.entries with
    | some (x, rest) =>
      { s with rpu := { s.rpu.countDrop with entries := rest ++ [e] }
               cmu := { s.cmu with progress := s.cmu.progress.releaseBody x.body } }
    | none => { s with rpu := s.rpu.countDrop }
  else { s with rpu := s.rpu.countDrop }

/-- A RESULT is written into the reservation: the place is given up and the entry joins the tail (R170). -/
def writeResult (body : ReportBody) (s : State) : State :=
  { s with rpu := { s.rpu with entries := s.rpu.entries ++ [{ stamp := s.stamp, body := body }], reserved := false } }

/-- A reservation is released without a result (R162, R168). -/
def releaseReservation (s : State) : State := { s with rpu := { s.rpu with reserved := false } }

/-- Number of a fault class, its bit in the further marks (spec 12.6). -/
def FaultClass.code : FaultClass → Nat
  | .rowCheck => 0 | .seatCheck => 1 | .poisonOverflow => 2 | .retainedCheck => 3

/-- The index kind of a fault is recorded for POISON_OVERFLOW and is 0 for every other class (R175, R181, spec 12). -/
def FaultClass.kindOf (cls : FaultClass) (kind : ItemKind) : ItemKind := if cls = .poisonOverflow then kind else .row

/-- A fault reaches the Report Unit (R175). Number and units come from the progress record whenever a command is in execution,
also for a fault that a grant build or a walk step finds between two of its units (notes/assumptions/22.md). -/
def takeFault (cls : FaultClass) (index : Nat) (kind : ItemKind) (s : State) : State :=
  let f := s.rpu.fault
  if f.held then
    let further := if f.further < 255 then f.further + 1 else f.further
    if f.marks.getLsbD cls.code then { s with rpu := { s.rpu with fault := { f with further := further } } }
    else
      offer (.faultFurther cls index)
        { s with rpu := { s.rpu with fault :=
            { f with further := further, marks := f.marks ||| (1 <<< cls.code) } } }
  else
    let inHand := s.cmu.executing.isSome
    let f' : FaultRecord :=
      { held := true, cls := cls, index := index, indexKind := cls.kindOf kind
        number := if inHand then s.cmu.progress.number else 0
        units := if inHand then s.cmu.progress.unitsApplied else 0
        time := s.stamp, marks := 0, further := 0 }
    offer (.faultFirst f') { s with rpu := { s.rpu with fault := f' } }

end Sys2Proof.Machine
end

