-- ==== Sys2Proof/Machine/Notices.lean ====
section
/-! DEFINITION. Notices: revocation to the Epoch Controller (R112, R134), fresh to the Grant Carousel (R135). -/

namespace Sys2Proof.Machine

/-- The grant entries of the packet in transmission (spec 8.1). -/
def Emission.entries : Emission → List GrantEntry
  | .sweep es _ => es
  | .fresh es _ => es
  | .quiet => []
  | .report _ => []

/-- Every entry built and not yet left: build buffer, ready sweep packet, fresh packet being built, packet in transmission
(R112, R134). -/
def State.heldEntries (s : State) : List GrantEntry :=
  s.gcr.buffer ++ (match s.gcr.ready with | some p => p.entries | none => []) ++ s.gcr.building ++
  (match s.out.sending with | some x => x.emission.entries | none => [])

/-- The carousel's answer of R134: it holds a built entry of slot m carrying this epoch and the live record's match id. -/
def State.carouselHolds (s : State) (m : SlotId) (epoch : BitVec 16) : Bool :=
  s.heldEntries.any fun e =>
    decide (e.slot = m) && decide (e.epoch = epoch) && decide ((s.live m).map (·.matchId) = some e.matchId)

/-- What a notice does to the record of a granting slot, the issued flag taken as set where `exposed` (R112, R113). -/
def EpochRecord.notice (r : EpochRecord) (exposed : Bool) : EpochRecord :=
  match r.rollover with
  | .steady => if exposed then { r with rollover := .pending, cause := some .notice } else r
  | .pending => r
  | .sweeping => { r with redo := true }
  | .switching => { r with redo := true }

/-- A revocation notice for slot m is taken (R112). -/
def revoke (m : SlotId) (s : State) : State :=
  if s.granting m then
    match s.record m with
    | some r => s.setRecord m (r.notice (r.issued || s.carouselHolds m r.epoch))
    | none => s
  else s

/-- One revocation notice for each slot that satisfies p, in slot order. -/
def revokeWhere (p : State → SlotId → Bool) (s : State) : State :=
  slotList.foldl (fun t m => if p s m then revoke m t else t) s

/-- A notice for a pair already queued restores its emissions_left and keeps its place (R135). -/
def refreshPair (c : Nat) (m : SlotId) (repeats : Nat) : List FreshPair → List FreshPair
  | [] => []
  | p :: rest =>
    if p.cohort = c ∧ p.slot = m then { p with left := repeats } :: rest else p :: refreshPair c m repeats rest

/-- The Fresh Queue holds an entry for this cohort and slot. -/
def holdsPair (c : Nat) (m : SlotId) (l : List FreshPair) : Bool :=
  l.any fun p => decide (p.cohort = c) && decide (p.slot = m)

/-- The Fresh Queue after a fresh notice (R135). -/
def noticePair (c : Nat) (m : SlotId) (repeats : Nat) (l : List FreshPair) : List FreshPair :=
  if holdsPair c m l then refreshPair c m repeats l
  else if l.length < 1024 then l ++ [{ cohort := c, slot := m, left := repeats }]
  else l

/-- A fresh notice for a cohort and slot is taken (R135). -/
def freshNotice (c : Nat) (m : SlotId) (s : State) : State :=
  { s with gcr := { s.gcr with fresh := noticePair c m s.settings.freshRepeats s.gcr.fresh } }

/-- One fresh notice for a cohort and each slot that satisfies p, in slot order. -/
def freshWhere (c : Nat) (p : State → SlotId → Bool) (s : State) : State :=
  slotList.foldl (fun t m => if p s m then freshNotice c m t else t) s

end Sys2Proof.Machine
end

