-- ==== Sys2Proof/Machine/Lifecycle.lean ====
section
/-! DEFINITION. Changes of slot state and what each hands to the other blocks (R30, R37 to R43, R46, R123, R125). -/

namespace Sys2Proof.Machine

/-- The identifiers a live record claims: its service PIDs and its Word PID (R7). -/
def MatchRecord.claims (r : MatchRecord) : List Nat := r.servicePids ++ [r.wordPid]

/-- Class of an identifier in the PID Map, PASS where it lists none (R5). -/
def Siu.classOf (u : Siu) (pid : Nat) : PidClass := sparseGet .pass u.pidMap pid

/-- An entry of the PID Map set. -/
def Siu.setClass (u : Siu) (pid : Nat) (c : PidClass) : Siu := { u with pidMap := sparseSet .pass u.pidMap pid c }

/-- A continuity counter set to 0, or discarded (R13): both leave nothing listed. -/
def Siu.zeroCounter (u : Siu) (pid : Nat) : Siu := { u with continuity := sparseSet 0 u.continuity pid 0 }

/-- The claims of slot m return to PASS and its Word PID's counter is discarded (R7, R43). -/
def releaseClaims (m : SlotId) (s : State) : State :=
  match s.live m with
  | none => s
  | some r => { s with siu := (r.claims.foldl (fun u p => u.setClass p .pass) s.siu).zeroCounter r.wordPid }

/-- Slot m has left the granting states: its rollover is dropped (R123). -/
def departGranting (m : SlotId) (s : State) : State :=
  match s.record m with
  | none => s
  | some r =>
    if r.rollover = .steady then s
    else
      offer (.rolloverAbandoned m (((s.live m).map (·.matchId)).getD 0) r.epoch r.rollover)
        (s.setEpochSlot m
          { record := some { r with pendingKey := none, redo := false, passesLeft := 0, sweepAge := 0, cause := none,
                                    rollover := .steady }
            ageTicks := 0 })

/-- The repeat timer starts, its start counting as its first expiry: a Word Message is due at once (R125, R147). -/
def startWords (m : SlotId) (s : State) : State :=
  s.setWordTimer m { due := (s.wordTimer m).due.or (some s.tbu.tick), timer := some 0 }

/-- The repeat timer stops and a due Word Message is withdrawn (R43, R147). -/
def stopWords (m : SlotId) (s : State) : State := s.setWordTimer m WordTimer.stopped

/-- Slot m takes a new state and a MATCH STATE report is queued (R46). -/
def enterState (m : SlotId) (dest : SlotState) (cause : StateCause) (s : State) : State :=
  let x := s.slot m
  offer (.matchState m ((x.live.map (·.matchId)).getD 0) x.state dest cause (if dest = .ended then x.endMark else none))
    (s.setSlot m { x with state := dest })

/-- Slot m enters ENDED with an end mark (R37, R39). -/
def enterEnded (m : SlotId) (mark : StreamTime) (cause : StateCause) (s : State) : State :=
  enterState m .ended cause (s.setSlot m { s.slot m with endMark := some mark })

/-- Slot m enters CLOSED, from ENDED or ABANDONED (R43). -/
def enterClosed (m : SlotId) (cause : StateCause) (s : State) : State :=
  let wasEnded := decide ((s.slot m).state = .ended)
  let s := releaseClaims m (enterState m .closed cause s)
  stopWords m (if wasEnded then departGranting m s else s)

/-- Slot m becomes EMPTY: its live record, end mark and epoch record are discarded (R42, R109). -/
def enterEmpty (m : SlotId) (cause : StateCause) (s : State) : State :=
  let s := enterState m .empty cause (s.setSlot m { s.slot m with live := none, endMark := none })
  s.setEpochSlot m EpochSlot.reset

/-- The time-driven transition that leaves slot m's present state, if its time is reached (R37). -/
def advanceOnce (m : SlotId) (s : State) : Option State :=
  match s.now, s.live m with
  | some now, some r =>
    match (s.slot m).state with
    | .scheduled => if reached r.saleOpen now then some (enterState m .onSale .time s) else none
    | .onSale =>
      if reached r.showStart now then
        some (startWords m (enterState m (if 0 < r.previewLen then .preview else .live) .time s))
      else none
    | .preview => if reached r.previewEnd now then some (enterState m .live .time s) else none
    | .live => if reached r.scheduledEnd now then some (enterState m .extended .time s) else none
    | .extended => if reached r.overrunEnd now then some (enterEnded m r.overrunEnd .time s) else none
    | .ended =>
      match (s.slot m).endMark with
      | some mark => if reached (r.closeTime mark) now then some (enterClosed m .time s) else none
      | none => none
    | .empty => none
    | .abandoned => none
    | .closed => none
    | .wiping => none
  | _, _ => none

/-- The evaluation of one slot: transitions in lifecycle order until one's time is not reached, six at most (R37). -/
def evaluateSlot (m : SlotId) : Nat → State → State
  | 0, s => s
  | n + 1, s =>
    match advanceOnce m s with
    | some s' => evaluateSlot m n s'
    | none => s

/-- A stream-time advance: every slot is evaluated in turn (R37). -/
def evaluateAll (s : State) : State := slotList.foldl (fun t m => evaluateSlot m 6 t) s

end Sys2Proof.Machine
end

