-- ==== Sys2Proof/Machine/Store.lean ====
section
/-! DEFINITION. The Seat Store: writes, checked reads, poison, store states and the Store Walker's steps
(chapter 4, R91). -/

namespace Sys2Proof.Machine

/-! ## Writes (R50, R56, R63) -/

/-- The VERIFY walk has passed cohort step c (R62). -/
def verifyPassed (s : State) (c : Nat) : Bool :=
  decide (s.sst.store = .verifying) &&
  (match s.sst.walk with
   | some w => decide (w.kind = .verify) && decide (c < w.cohort)
   | none => false)

/-- The signature, and where the step of cohort c has been passed the accumulator, take a change of digest (R56, R63). -/
def bookDigest (c : Nat) (old new : BitVec 32) (s : State) : State :=
  { s with sst := { s.sst with
      signature := s.sst.signature ^^^ old ^^^ new
      accumulator := if verifyPassed s c then s.sst.accumulator ^^^ old ^^^ new else s.sst.accumulator } }

/-- A cohort row is written whole with its digest (R50). -/
def writeRow (c : Nat) (content : RowImage) (s : State) : State :=
  let old := rowAt s c
  let s := bookDigest c old.digest (rowDigest content) s
  { s with sst := { s.sst with
      rows := sparseSet clearedRow s.sst.rows c { content := content, digest := rowDigest content } } }

/-- A seat record is written whole with its digest (R50). -/
def writeRecord (seat : Nat) (content : RecordImage) (s : State) : State :=
  let old := recordAt s seat
  let s := bookDigest (seat / 32) old.digest (recordDigest content) s
  { s with sst := { s.sst with
      records := sparseSet clearedRecord s.sst.records seat { content := content, digest := recordDigest content } } }

/-! ## Store states and poison (R52, R53, R60 to R65, R70) -/

/-- An item is on the Poison List. -/
def isPoisoned (s : State) (k : ItemKind) (i : Nat) : Bool := decide ({ kind := k, index := i } ∈ s.sst.poison)

/-- The store enters CLEARING (R60), with the entry notices of R61. -/
def enterClearing (s : State) : State :=
  let s := { s with sst := { s.sst with
    signature := 0, poison := [], store := .clearing,
    walk := some { kind := .clear, cohort := 0, rowSkips := 0, seatSkips := 0 } } }
  revokeWhere (State.grantingWith · .closedPolicy ·) (offer .storeClearing s)

/-- A slot in WIPING or ABANDONED is settled, `w` being the walk that was under way (R70 step 2). -/
def settleSlot (w : Option Walk) (m : SlotId) (s : State) : State :=
  match (s.slot m).state with
  | .wiping => enterEmpty m .walkCut s
  | .abandoned =>
    let cut : Nat × Nat × Nat :=
      match w with
      | some x => if x.kind = .refund m then (x.cohort, x.rowSkips, x.seatSkips) else (0, 0, 0)
      | none => (0, 0, 0)
    enterClosed m .walkCut (offer (.refundCut m cut.1 cut.2.1 cut.2.2) s)
  | .empty | .scheduled | .onSale | .preview | .live | .extended | .ended | .closed => s

/-- Walks are cut, slots are settled in slot order, and the store enters CLEARING (R70). -/
def cutAndClear (s : State) : State :=
  let w := s.sst.walk
  let s := { s with sst := { s.sst with walkQueue := [] } }
  enterClearing (slotList.foldl (fun t m => settleSlot w m t) s)

/-- A verify ends LOST, its STORE LOST report given (R64). -/
def verifyLost (body : ReportBody) (s : State) : State := cutAndClear (offer body s)

/-- A Poison List overflow in READY makes the store FAILED (R65). -/
def storeFail (index : Nat) (s : State) : State :=
  let s := { s with sst := { s.sst with store := .failed } }
  revokeWhere (State.grantingWith · .closedPolicy ·) (offer (.storeFailed index) s)

/-- The fault class of a poisoned item (R52). -/
def ItemKind.fault : ItemKind → FaultClass
  | .row => .rowCheck
  | .seat => .seatCheck

/-- An item is poisoned with room on the list: entry, fault, and for a row the notices of R53 (R52). -/
def poisonItem (k : ItemKind) (i : Nat) (s : State) : State :=
  let s := takeFault k.fault i k { s with sst := { s.sst with poison := s.sst.poison ++ [{ kind := k, index := i }] } }
  match k with
  | .row => revokeWhere (State.grantingWith · .closedPolicy ·) s
  | .seat => s

/-- A digest failure on an item not on the Poison List, by store state (R52). -/
def digestFailure (k : ItemKind) (i : Nat) (s : State) : State :=
  match s.sst.store with
  | .clearing => s
  | .verifying =>
    if s.sst.poison.length < 64 then poisonItem k i s
    else takeFault .poisonOverflow i k (verifyLost (.storeLostOverflow i s.sst.signature) s)
  | .ready =>
    if s.sst.poison.length < 64 then poisonItem k i s
    else takeFault .poisonOverflow i k (storeFail i s)
  | .failed => takeFault .poisonOverflow i k s

/-! ## Checked reads (R51) -/

/-- A checked read of cohort c's row: its content, or nothing where it is poisoned. No read takes place in CLEARING (R61). -/
def readRow (c : Nat) (s : State) : Option RowImage × State :=
  if s.sst.store = .clearing then (none, s)
  else if isPoisoned s .row c then (none, s)
  else
    let r := rowAt s c
    if rowDigest r.content = r.digest then (some r.content, s) else (none, digestFailure .row c s)

/-- A checked read of a seat's record. -/
def readRecord (seat : Nat) (s : State) : Option RecordImage × State :=
  if s.sst.store = .clearing then (none, s)
  else if isPoisoned s .seat seat then (none, s)
  else
    let r := recordAt s seat
    if recordDigest r.content = r.digest then (some r.content, s) else (none, digestFailure .seat seat s)

/-- The old-content read of a load, which poisons nothing (R51, R71): nothing where listed or failing its digest. -/
def oldRow (c : Nat) (s : State) : Option RowImage :=
  let r := rowAt s c
  if isPoisoned s .row c then none else if rowDigest r.content = r.digest then some r.content else none

/-- The old-content read of a record's load (R51, R72). -/
def oldRecord (seat : Nat) (s : State) : Option RecordImage :=
  let r := recordAt s seat
  if isPoisoned s .seat seat then none else if recordDigest r.content = r.digest then some r.content else none

/-- An item's entry leaves the Poison List, wherever it stands (R54). -/
def curePoison (k : ItemKind) (i : Nat) (s : State) : State :=
  { s with sst := { s.sst with poison := s.sst.poison.erase { kind := k, index := i } } }

/-! ## Walks (R60, R62, R64, R66 to R69, R91) -/

/-- The walk under way stands at the next cohort. -/
def nextCohort (s : State) : State :=
  { s with sst := { s.sst with walk := s.sst.walk.map fun w => { w with cohort := w.cohort + 1 } } }

/-- The Walker has no walk. -/
def endWalk (s : State) : State := { s with sst := { s.sst with walk := none } }

/-- One more row skipped (R68, R69). -/
def skipRow (s : State) : State :=
  { s with sst := { s.sst with walk := s.sst.walk.map fun w => { w with rowSkips := satInc w.rowSkips } } }

/-- One more seat skipped (R68, R69). -/
def skipSeat (s : State) : State :=
  { s with sst := { s.sst with walk := s.sst.walk.map fun w => { w with seatSkips := satInc w.seatSkips } } }

/-- The seat that member i of cohort c is (spec 0.6.3). -/
def seatOf (c : Nat) (i : Fin 32) : Nat := 32 * c + i.val

/-- The CLEAR walk writes an item of zero content without reading it, its digest XORed into the signature (R60). -/
def clearItem (k : ItemKind) (i : Nat) (s : State) : State :=
  match k with
  | .row =>
    { s with sst := { s.sst with
        rows := sparseSet clearedRow s.sst.rows i clearedRow, signature := s.sst.signature ^^^ clearedRow.digest } }
  | .seat =>
    { s with sst := { s.sst with
        records := sparseSet clearedRecord s.sst.records i clearedRecord
        signature := s.sst.signature ^^^ clearedRecord.digest } }

/-- The CLEAR walk ends: READY, STORE READY, and R61's notices for OPEN slots. -/
def endClear (s : State) : State :=
  let s := { s with sst := { s.sst with store := .ready, walk := none } }
  revokeWhere (State.grantingWith · .openPolicy ·) (offer .storeReady s)

/-- Cohort step c of the CLEAR walk (R60). -/
def clearStep (c : Nat) (s : State) : State :=
  let s := memberList.foldl (fun t i => clearItem .seat (seatOf c i) t) (clearItem .row c s)
  if c + 1 < cohortCount then nextCohort s else endClear s

/-- An item's stored digest is XORed into the scan accumulator (R62). -/
def scanDigest (d : BitVec 32) (s : State) : State :=
  { s with sst := { s.sst with accumulator := s.sst.accumulator ^^^ d } }

/-- The VERIFY walk reads a row, checks it and adds its stored digest; nothing once the walk has ended LOST (R62, R64). -/
def verifyRow (c : Nat) (s : State) : State :=
  let t := (readRow c s).2
  if t.sst.store = .verifying then scanDigest (rowAt s c).digest t else t

/-- The VERIFY walk reads a record, checks it and adds its stored digest; nothing once it has ended LOST (R62, R64). -/
def verifyRecord (seat : Nat) (s : State) : State :=
  if s.sst.store = .verifying then
    let t := (readRecord seat s).2
    if t.sst.store = .verifying then scanDigest (recordAt s seat).digest t else t
  else s

/-- A walk for slot m waits in the Walk Queue. -/
def walkQueued (s : State) (m : SlotId) : Bool := s.sst.walkQueue.any fun q => decide (q.slot = m)

/-- A walk joins the tail of the Walk Queue (R66). -/
def queueWalk (refund : Bool) (m : SlotId) (s : State) : State :=
  { s with sst := { s.sst with walkQueue := s.sst.walkQueue ++ [{ refund := refund, slot := m }] } }

/-- The walk slot m owes after a verify, if it is not queued (R64). -/
def requeueOwed (m : SlotId) (s : State) : State :=
  if walkQueued s m then s
  else
    match (s.slot m).state with
    | .wiping => queueWalk false m s
    | .abandoned => queueWalk true m s
    | .empty | .scheduled | .onSale | .preview | .live | .extended | .ended | .closed => s

/-- The VERIFY walk has passed the last step (R64). -/
def endVerify (s : State) : State :=
  if s.sst.accumulator = s.sst.signature then
    slotList.foldl (fun t m => requeueOwed m t)
      (offer .storeReady { s with sst := { s.sst with store := .ready, walk := none } })
  else verifyLost (.storeLostMismatch s.sst.accumulator s.sst.signature) s

/-- Cohort step c of the VERIFY walk (R62, R64). -/
def verifyStep (c : Nat) (s : State) : State :=
  let s := memberList.foldl (fun t i => verifyRecord (seatOf c i) t) (verifyRow c s)
  if s.sst.store = .verifying then (if c + 1 < cohortCount then nextCohort s else endVerify s) else s

/-- A WIPE step's row: purchase[m] becomes 0, or the row is skipped (R68). -/
def wipeRow (m : SlotId) (c : Nat) (s : State) : State :=
  match readRow c s with
  | (some r, t) => if r.purchase.get m = 0 then t else writeRow c (r.setPurchase m 0) t
  | (none, t) => skipRow t

/-- A WIPE step's record: paid[m] becomes 0, or the record is skipped (R68). -/
def wipeRecord (m : SlotId) (seat : Nat) (s : State) : State :=
  match readRecord seat s with
  | (some r, t) => if r.paid.get m = 0 then t else writeRecord seat (r.setPaid m 0) t
  | (none, t) => skipSeat t

/-- The skip counts of the walk under way. -/
def skipCounts (s : State) : Nat × Nat :=
  match s.sst.walk with
  | some w => (w.rowSkips, w.seatSkips)
  | none => (0, 0)

/-- Cohort step c of the WIPE walk of slot m (R68). The last step ends the walk, also where it has made the store FAILED
(notes/assumptions/53.md). -/
def wipeStep (m : SlotId) (c : Nat) (s : State) : State :=
  let s := memberList.foldl (fun t i => wipeRecord m (seatOf c i) t) (wipeRow m c s)
  if c + 1 < cohortCount then nextCohort s
  else enterEmpty m .walkEnd (offer (.wipeDone m (skipCounts s).1 (skipCounts s).2) (endWalk s))

/-- The per-seat step of the REFUND walk for a member whose bit is set: the purchase mask after it, and the state (R91). -/
def refundMember (m : SlotId) (c : Nat) (x : MemberMask × State) (i : Fin 32) : MemberMask × State :=
  if x.1.getLsbD i.val then
    match readRecord (seatOf c i) x.2 with
    | (some r, t) => (x.1 &&& ~~~ memberBit i, writeRecord (seatOf c i) (r.refunded t.settings.creditCap m) t)
    | (none, t) => (x.1, skipSeat t)
  else x

/-- A REFUND step's cohort: the members that hold slot m are refunded and the row is written once, or the whole step is
skipped where the row is poisoned (R69). -/
def refundCohort (m : SlotId) (c : Nat) (s : State) : State :=
  match readRow c s with
  | (none, t) => skipRow t
  | (some r, t) =>
    let x := memberList.foldl (refundMember m c) (r.purchase.get m, t)
    if x.1 = r.purchase.get m then x.2 else writeRow c (r.setPurchase m x.1) x.2

/-- Cohort step c of the REFUND walk of slot m (R69, R41). The last step ends the walk, also where it has made the store FAILED
(notes/assumptions/53.md). -/
def refundStep (m : SlotId) (c : Nat) (s : State) : State :=
  let s := refundCohort m c s
  if c + 1 < cohortCount then nextCohort s
  else enterClosed m .walkEnd (offer (.refundDone m (skipCounts s).1 (skipCounts s).2) (endWalk s))

end Sys2Proof.Machine
end

