-- ==== Sys2Proof/Machine/Grants.lean ====
section
/-! DEFINITION. The grant decision, the sweep's builder and the fresh build (chapters 6 and 8). -/

namespace Sys2Proof.Machine

/-! ## The grant decision -/

/-- The house mask of cohort c: bit i for each listed seat whose number is 32c + i (R59). -/
def houseMask (s : State) (c : Nat) : MemberMask :=
  memberList.foldl (fun acc i => if seatOf c i ∈ s.sst.house then acc ||| memberBit i else acc) 0

/-- The blackout mask of a row for a blackout set (R100). -/
def blackoutMask (r : RowImage) (set : BitVec 256) : MemberMask :=
  memberList.foldl (fun acc i => if inBlackout set (r.region.get i) then acc ||| memberBit i else acc) 0

/-- The base mask from a readable row: purchase mask less suspend mask less blackout mask (R100). -/
def rowMask (r : RowImage) (m : SlotId) (set : BitVec 256) : MemberMask :=
  r.purchase.get m &&& ~~~ r.suspend &&& ~~~ blackoutMask r set

/-- The base mask from a fail policy (R101). -/
def policyMask : FailPolicy → MemberMask
  | .openPolicy => 0xFFFFFFFF
  | .closedPolicy => 0

/-- The base mask of slot m: from the row where it could be used, else from the fail policy (R100, R101). -/
def baseMask (row : Option RowImage) (rec : MatchRecord) (m : SlotId) : MemberMask :=
  match row with
  | some r => rowMask r m rec.blackout
  | none => policyMask rec.failPolicy

/-- Whether a build reads the row, and what it finds: nothing where the fail policy decides (R99, R102). -/
def rowForBuild (c : Nat) (wanted : Bool) (s : State) : Option RowImage × State :=
  match s.sst.store with
  | .clearing => (none, s)
  | .failed => (none, s)
  | .verifying => if wanted then readRow c s else (none, s)
  | .ready => if wanted then readRow c s else (none, s)

/-- One grant entry, its epoch key wrapped under the root key in force (R105, R107). -/
def makeEntry (s : State) (c : Nat) (m : SlotId) (rec : MatchRecord) (epoch : BitVec 16) (key : Drawn)
    (mask : MemberMask) : GrantEntry :=
  { cohort := c, slot := m, matchId := rec.matchId, epoch := epoch, mask := mask
    wrapped := Config.wrapKey s.cmu.rootKey c rec.matchId key.bits }

/-- The entries of one cohort and slot: none for a slot that is not granting or a mask of 0; otherwise as the rollover
state gives, dual in a fresh build during a rollover (R97, R103 to R106). A dual pair at E = 65,535 stands in the order of
R106's table, 65,535 before 0 (notes/assumptions/44.md). -/
def entriesFor (dual : Bool) (s : State) (c : Nat) (row : Option RowImage) (m : SlotId) : List GrantEntry :=
  if s.granting m then
    match s.live m, s.record m with
    | some rec, some r =>
      let mask := baseMask row rec m ||| houseMask s c
      if mask = 0 then []
      else
        match r.rollover.rolling, r.pendingKey with
        | true, some k =>
          let next := makeEntry s c m rec (r.epoch + 1) k mask
          if dual then [makeEntry s c m rec r.epoch r.currentKey mask, next] else [next]
        | _, _ => [makeEntry s c m rec r.epoch r.currentKey mask]
    | _, _ => []
  else []

/-- A sweep build of cohort c: its row read at most once, its entries for slots 0 to 15 in slot order (R98, R130). -/
def sweepBuild (c : Nat) (s : State) : List GrantEntry × State :=
  let x := rowForBuild c (slotList.any s.granting) s
  (slotList.flatMap (entriesFor false x.2 c x.1), x.2)

/-! ## The builder -/

/-- The builder packs: 6 oldest entries become the ready packet; when the pass is closing, the remaining 1 to 6 with the
pass-end mark (R130, R131). -/
def pack (s : State) : State :=
  let g := s.gcr
  if g.ready.isSome then s
  else if g.closing then
    if g.buffer = [] then s
    else { s with gcr := { g with ready := some { entries := g.buffer.take 6, passEnd := decide (g.buffer.length ≤ 6) }
                                  buffer := g.buffer.drop 6 } }
  else if 6 ≤ g.buffer.length then
    { s with gcr := { g with ready := some { entries := g.buffer.take 6, passEnd := false }
                             buffer := g.buffer.drop 6 } }
  else s

/-- A pass event at one record: passes_left decrements in SWEEPING, and reaching 0 makes it SWITCHING (R119). -/
def EpochRecord.passEvent (r : EpochRecord) : EpochRecord :=
  match r.rollover with
  | .sweeping => { r with passesLeft := r.passesLeft - 1, rollover := if r.passesLeft ≤ 1 then .switching else .sweeping }
  | .steady => r
  | .pending => r
  | .switching => r

/-- A pass event at slot m (R119). -/
def passSlot (m : SlotId) (s : State) : State :=
  match s.record m with
  | some r => s.setRecord m r.passEvent
  | none => s

/-- The wrap event: the closing mark is cleared and the Epoch Controller takes a pass event (R119, R131). -/
def wrapEvent (s : State) : State :=
  slotList.foldl (fun t m => passSlot m t) { s with gcr := { s.gcr with closing := false } }

/-- The sweep is at a pass start (R131). -/
def State.passStart (s : State) : Bool :=
  decide (s.gcr.pointer = 0) && decide (s.gcr.buffer = []) && !s.gcr.closing && s.gcr.ready.isNone &&
  (match s.out.sending with
   | some x => (match x.emission with | .sweep _ passEnd => !passEnd | .quiet => true | .report _ => true | .fresh _ _ => true)
   | none => true)

/-- The builder may take a cohort step (R130). -/
def State.mayStep (s : State) : Bool :=
  s.running && s.gcr.ready.isNone && decide (s.gcr.buffer.length < 6) && !s.gcr.closing

/-- The step of the last active cohort closes the pass: its wrap event at once where nothing is left to send (R131), even while
the pass's last full packet is in transmission (notes/assumptions/45.md). -/
def closePass (s : State) : State :=
  let s := { s with gcr := { s.gcr with pointer := 0, closing := true } }
  if s.gcr.buffer = [] then wrapEvent s else pack s

/-- The builder's cohort step (R129 to R132). -/
def builderStep (s : State) : State :=
  let c := s.gcr.pointer
  let limit := s.settings.activeCohorts
  if limit ≤ c then closePass s
  else
    let x := sweepBuild c s
    let t := { x.2 with gcr := { x.2.gcr with buffer := x.2.gcr.buffer ++ x.1 } }
    if c + 1 = limit then closePass t else pack { t with gcr := { t.gcr with pointer := c + 1 } }

/-! ## The fresh build -/

/-- Entries a pair of slot m needs: two during a rollover, else one (R136). -/
def pairNeeds (s : State) (m : SlotId) : Nat :=
  match s.record m with
  | some r => if r.rollover.rolling then 2 else 1
  | none => 1

/-- Pairs are taken from the head of the Fresh Queue while the packet has room: the pairs left, the pairs whose entries
the packet carries, and the state with those entries as the packet being built (R136, R137). -/
def takePairs : List FreshPair → List FreshPair → State → List FreshPair × List FreshPair × State
  | [], taken, s => ([], taken, s)
  | p :: rest, taken, s =>
    if 6 ≤ s.gcr.building.length then (p :: rest, taken, s)
    else if !s.granting p.slot then takePairs rest taken s
    else if 6 < s.gcr.building.length + pairNeeds s p.slot then (p :: rest, taken, s)
    else
      let x := rowForBuild p.cohort true s
      let es := entriesFor true x.2 p.cohort x.1 p.slot
      if es = [] then takePairs rest taken x.2
      else takePairs rest (taken ++ [p]) { x.2 with gcr := { x.2.gcr with building := x.2.gcr.building ++ es } }

/-- What a fresh build yields: the entries of its packet, their pairs, and the state with the queue's rest (R136, R137). -/
def freshBuild (s : State) : List GrantEntry × List FreshPair × State :=
  let x := takePairs s.gcr.fresh [] s
  (x.2.2.gcr.building, x.2.1, { x.2.2 with gcr := { x.2.2.gcr with fresh := x.1, building := [] } })

/-- An emitted pair: counted down, and appended at the tail where emissions are left, it is not queued and there is room
(R138). -/
def requeuePair (l : List FreshPair) (p : FreshPair) : List FreshPair :=
  if p.left ≤ 1 then l
  else if holdsPair p.cohort p.slot l then l
  else if l.length < 1024 then l ++ [{ p with left := p.left - 1 }]
  else l

/-- The emission of an entry at the Epoch Controller: the issued flag is set where slot, match id and epoch agree (R110). -/
def issueEntry (s : State) (e : GrantEntry) : State :=
  match s.record e.slot, s.live e.slot with
  | some r, some rec =>
    if s.granting e.slot && decide (rec.matchId = e.matchId) && decide (r.epoch = e.epoch) then
      s.setRecord e.slot { r with issued := true }
    else s
  | _, _ => s

end Sys2Proof.Machine
end

