-- ==== Sys2Proof/Machine/Formats.lean ====
section
/-! DEFINITION. The bytes of the packets and report entries the part sends (chapter 12). -/

namespace Sys2Proof.Machine

/-! ## Codes of enumerations (spec 12.6) -/

/-- Code of a lock state. -/
def LockState.code : LockState → Nat
  | .hunt => 0 | .check => 1 | .locked => 2

/-- Code of a Timebase state. -/
def TimebaseState.code : TimebaseState → Nat
  | .noTime => 0 | .tracking => 1 | .holdover => 2

/-- Code of a store state. -/
def StoreState.code : StoreState → Nat
  | .clearing => 0 | .verifying => 1 | .ready => 2 | .failed => 3

/-- Code of a rollover state. -/
def RolloverState.code : RolloverState → Nat
  | .steady => 0 | .pending => 1 | .sweeping => 2 | .switching => 3

/-- Code of a rollover cause. -/
def RolloverCause.code : RolloverCause → Nat
  | .notice => 0 | .redo => 1 | .lifetime => 2

/-- Code of a MATCH STATE cause. -/
def StateCause.code : StateCause → Nat
  | .commit => 0 | .time => 1 | .whistle => 2 | .abandon => 3 | .clear => 4 | .walkEnd => 5 | .walkCut => 6

/-- Code of an INPUT LOST cause. -/
def LossCause.code : LossCause → Nat
  | .badSync => 0 | .silence => 1

/-- Code of a RESTART cause. -/
def RestartCause.code : RestartCause → Nat
  | .resetn => 0 | .command => 1

/-- Code of an item kind. -/
def ItemKind.code : ItemKind → Nat
  | .row => 0 | .seat => 1

/-- Code of an end-method: its position in the list of spec 10.8. -/
def EndMethod.code : EndMethod → Nat
  | .none => 0 | .notStarted => 1 | .prefixSafe => 2 | .prefixUnsafe => 3 | .complete => 4

/-- Code of a phase (spec 12.5). -/
def Phase.code : Phase → Nat
  | .even => 0 | .odd => 1

/-- Code of a fail policy (spec 12.4). -/
def FailPolicy.code : FailPolicy → Nat
  | .openPolicy => 0 | .closedPolicy => 1

/-- Code of an Input Fill value (spec 12.3). -/
def FillMode.code : FillMode → Nat
  | .null => 0 | .flood => 1

/-- Code of a command's result. -/
def CommandResult.code : CommandResult → Nat
  | .taken => 0 | .skipped => 1 | .stale => 2 | .badKind => 3 | .badLength => 4 | .refused => 5

/-- Code of a refusal's reason. -/
def RefusalReason.code : RefusalReason → Nat
  | .none => 0 | .wrongState => 1 | .badField => 2 | .pidConflict => 3 | .badKey => 4

/-- Number of an item code. -/
def ItemCode.code : ItemCode → Nat
  | .done => 0 | .capped => 1 | .clamped => 2 | .cured => 3 | .already => 4 | .alreadyHeld => 5 | .notHeld => 6
  | .duplicate => 7 | .listFull => 8 | .badField => 9 | .outOfRange => 10 | .storeNotReady => 11 | .storeFailed => 12
  | .rowPoisoned => 13 | .slotNotActive => 14 | .notOnSale => 15 | .saleClosed => 16 | .suspended => 17
  | .blackedOut => 18 | .noTime => 19 | .noCredit => 20 | .notStaged => 21 | .badTimes => 22 | .pidConflict => 23
  | .fixedField => 24 | .tooLate => 25 | .pidReserved => 26

/-! ## Report entries (spec 12.6) -/

/-- The detail byte of a RESULT. -/
def ResultDetail.byte : ResultDetail → BitVec 8
  | .none => 0
  | .field f => Config.fieldPosition f
  | .regions n => BitVec.ofNat 8 n

/-- The progress record as a RESTART report carries it (R168; widths: notes/assumptions/15.md). -/
def Progress.bytes (p : Progress) : List (BitVec 8) :=
  beBytes 4 p.number.toNat ++ [p.kind] ++ beBytes 1 p.unitCount ++ beBytes 1 p.unitsApplied ++
  beBytes 1 p.endMethod.code

/-- The Fault Record's 18 bytes (spec 12.6). -/
def FaultRecord.bytes (f : FaultRecord) : List (BitVec 8) :=
  [flagByte f.held] ++ beBytes 1 f.cls.code ++ beBytes 3 f.index ++ beBytes 1 f.indexKind.code ++
  beBytes 4 f.number.toNat ++ beBytes 1 f.units ++ beBytes 5 f.time.toNat ++ beBytes 1 f.marks.toNat ++
  beBytes 1 f.further

/-- An end mark in its 5 bytes; where none is carried, the field is not filled and carries 0 (R181). -/
def endMarkBytes : Option StreamTime → List (BitVec 8)
  | some t => beBytes 5 t.toNat
  | none => List.replicate 5 0

/-- Kind code and sub-kind code of a report entry. -/
def ReportBody.codes : ReportBody → Nat × Nat
  | .result _ _ _ _ _ _ => (1, 0)
  | .readback _ _ _ _ => (2, 0)
  | .matchState _ _ _ _ _ _ => (3, 0)
  | .rolloverStarted _ _ _ _ _ => (4, 1)
  | .rolloverDone _ _ _ _ _ => (4, 2)
  | .rolloverForced _ _ _ _ _ _ => (4, 3)
  | .rolloverAbandoned _ _ _ _ => (4, 4)
  | .timeAcquired _ => (5, 1)
  | .timeJump _ _ => (5, 2)
  | .holdoverEntered => (5, 3)
  | .holdoverLeft _ => (5, 4)
  | .inputLost _ => (6, 1)
  | .inputRegained => (6, 2)
  | .storeClearing => (7, 1)
  | .storeVerifying => (7, 2)
  | .storeReady => (7, 3)
  | .storeFailed _ => (7, 4)
  | .storeLostMismatch _ _ => (7, 5)
  | .storeLostOverflow _ _ => (7, 5)
  | .wipeDone _ _ _ => (7, 6)
  | .refundDone _ _ _ => (7, 7)
  | .refundCut _ _ _ _ => (7, 8)
  | .faultFirst _ => (8, 1)
  | .faultFurther _ _ => (8, 2)
  | .restart _ _ _ => (9, 0)

/-- Content of a report entry, its fields in the order of the owning rule; the end mark of a MATCH STATE entry keeps its place
(R181). Widths: notes/assumptions/15.md; the two causes of STORE LOST: 17.md. -/
def ReportBody.content : ReportBody → List (BitVec 8)
  | .result n kind res reason detail codes =>
    beBytes 4 n.toNat ++ [kind] ++ beBytes 1 res.code ++ beBytes 1 reason.code ++ [detail.byte] ++
    beBytes 1 codes.length ++ codes.flatMap (fun c => beBytes 1 c.code.code ++ beBytes 2 c.value)
  | .readback n part total data => beBytes 4 n.toNat ++ beBytes 1 part ++ beBytes 1 total ++ data
  | .matchState m id left entered cause mark =>
    beBytes 1 m.val ++ beBytes 4 id.toNat ++ beBytes 1 left.code ++ beBytes 1 entered.code ++ beBytes 1 cause.code ++
    endMarkBytes mark
  | .rolloverStarted m id e cause passes =>
    beBytes 1 m.val ++ beBytes 4 id.toNat ++ beBytes 2 e.toNat ++ beBytes 1 cause.code ++ beBytes 1 passes
  | .rolloverDone m id e age redo =>
    beBytes 1 m.val ++ beBytes 4 id.toNat ++ beBytes 2 e.toNat ++ beBytes 2 age ++ [flagByte redo]
  | .rolloverForced m id e age passes redo =>
    beBytes 1 m.val ++ beBytes 4 id.toNat ++ beBytes 2 e.toNat ++ beBytes 2 age ++ beBytes 1 passes ++ [flagByte redo]
  | .rolloverAbandoned m id e left =>
    beBytes 1 m.val ++ beBytes 4 id.toNat ++ beBytes 2 e.toNat ++ beBytes 1 left.code
  | .timeAcquired v => beBytes 5 v.toNat
  | .timeJump d left => beBytes 5 (Config.signedContent d).toNat ++ beBytes 1 left.code
  | .holdoverEntered => []
  | .holdoverLeft d => beBytes 5 (Config.signedContent d).toNat
  | .inputLost cause => beBytes 1 cause.code
  | .inputRegained => []
  | .storeClearing => []
  | .storeVerifying => []
  | .storeReady => []
  | .storeFailed index => beBytes 3 index
  | .storeLostMismatch acc sig => beBytes 1 0 ++ beBytes 4 acc.toNat ++ beBytes 4 sig.toNat
  | .storeLostOverflow index sig => beBytes 1 1 ++ beBytes 3 index ++ beBytes 4 sig.toNat
  | .wipeDone m rows seats => beBytes 1 m.val ++ beBytes 2 rows ++ beBytes 2 seats
  | .refundDone m rows seats => beBytes 1 m.val ++ beBytes 2 rows ++ beBytes 2 seats
  | .refundCut m c rows seats => beBytes 1 m.val ++ beBytes 2 c ++ beBytes 2 rows ++ beBytes 2 seats
  | .faultFirst f => f.bytes
  | .faultFurther cls index => beBytes 1 cls.code ++ beBytes 3 index
  | .restart cause last p => beBytes 1 cause.code ++ beBytes 4 last.toNat ++ p.bytes

/-- Length of a whole report entry: its 9-byte head and its content. -/
def ReportEntry.size (e : ReportEntry) : Nat := 9 + e.body.content.length

/-- A whole report entry: kind, sub-kind, length, stamp, content. -/
def ReportEntry.bytes (e : ReportEntry) : List (BitVec 8) :=
  beBytes 1 e.body.codes.1 ++ beBytes 1 e.body.codes.2 ++ beBytes 2 e.size ++ beBytes 5 e.stamp.toNat ++ e.body.content

/-- How many entries from the head a report packet takes: fewer than 8 held and the next one fits in what is left of the
183 bytes after the count byte; it stops at the first that does not fit (R172, R181). -/
def entriesThatFit : Nat → Nat → List ReportEntry → Nat
  | 0, _, _ => 0
  | _ + 1, _, [] => 0
  | n + 1, room, e :: rest => if e.size ≤ room then 1 + entriesThatFit n (room - e.size) rest else 0

/-- READBACK data cut into parts of up to 168 bytes (R172; notes/assumptions/16.md). -/
def readbackParts (data : List (BitVec 8)) : List (List (BitVec 8)) := groups 168 ((data.length + 167) / 168) data

/-- A READBACK of a command's data: its parts offered in order (R162, R172). -/
def offerReadback (number : BitVec 32) (data : List (BitVec 8)) (s : State) : State :=
  let parts := readbackParts data
  ((List.range parts.length).zip parts).foldl
    (fun t x => offer (.readback number (x.1 + 1) parts.length x.2) t) s

/-! ## Packets -/

/-- A packet that the part inserts: header and payload, 0xFF after its content (spec 12.1). -/
def insertedPacket (pid : Nat) (counter : BitVec 4) (content : List (BitVec 8)) : List (BitVec 8) :=
  [0x47, BitVec.ofNat 8 (0x40 + pid / 256), BitVec.ofNat 8 pid, BitVec.ofNat 8 (0x10 + counter.toNat)] ++
  (content ++ List.replicate (184 - content.length) 0xFF)

/-- A generated null packet (R154, spec 12.1). -/
def nullPacket : List (BitVec 8) := [0x47, 0x1F, 0xFF, 0x10] ++ List.replicate 184 0xFF

/-- One grant entry, 29 bytes (spec 12.5). -/
def GrantEntry.bytes (e : GrantEntry) : List (BitVec 8) :=
  beBytes 2 e.cohort ++ beBytes 1 e.slot.val ++ beBytes 4 e.matchId.toNat ++ beBytes 2 e.epoch.toNat ++
  beBytes 4 e.mask.toNat ++ beBytes 16 e.wrapped.toNat

/-- A grant message's content: entry count, then the entries (spec 12.5). -/
def grantContent (es : List GrantEntry) : List (BitVec 8) := beBytes 1 es.length ++ es.flatMap GrantEntry.bytes

/-- A Word Message's content: both words wrapped under the current key (R124, spec 12.5). -/
def wordContent (m : SlotId) (rec : MatchRecord) (r : EpochRecord) : List (BitVec 8) :=
  let wrapped (w : Drawn) := beBytes 16 (Config.wrapWord r.currentKey.bits rec.matchId r.epoch w.bits).toNat
  beBytes 1 m.val ++ beBytes 4 rec.matchId.toNat ++ beBytes 2 r.epoch.toNat ++ beBytes 1 r.phase.code ++
  wrapped r.evenWord ++ wrapped r.oddWord

/-- A report packet's content: entry count, then the entries (spec 12.6). -/
def reportContent (es : List ReportEntry) : List (BitVec 8) := beBytes 1 es.length ++ es.flatMap ReportEntry.bytes

/-- One slot of the Status Summary: state, E (0 for an EMPTY slot), rollover state (R173). -/
def slotSummary (s : State) (m : SlotId) : List (BitVec 8) :=
  beBytes 1 (s.slot m).state.code ++
  (match s.record m with
   | some r => beBytes 2 r.epoch.toNat ++ beBytes 1 r.rollover.code
   | none => [0, 0, 0])

/-- The Status Summary's 94 bytes, built from the state at its placement (R173, spec 12.6). -/
def summaryContent (s : State) : List (BitVec 8) :=
  [0] ++ beBytes 5 s.stamp.toNat ++ beBytes 1 s.tbu.state.code ++ beBytes 1 s.siu.lock.code ++
  beBytes 1 s.sst.store.code ++ slotList.flatMap (slotSummary s) ++ beBytes 2 s.gcr.fresh.length ++
  beBytes 2 s.gcr.pointer ++ beBytes 1 s.rpu.places ++ [flagByte s.rpu.fault.held] ++
  beBytes 1 ((if s.tbu.holdoverSeen then 1 else 0) + (if s.siu.inputLostSeen then 2 else 0)) ++
  beBytes 2 s.rpu.counters.checkFailures ++ beBytes 2 s.rpu.counters.staleCommands ++
  beBytes 2 s.rpu.counters.discardedCommands ++ beBytes 2 s.rpu.counters.droppedReports ++
  beBytes 2 s.rpu.counters.ownedCollisions ++ beBytes 2 s.rpu.counters.preScrambled ++
  beBytes 2 s.rpu.counters.transportErrors

end Sys2Proof.Machine
end

