-- ==== Sys2Proof/Machine/Ops.lean ====
section
/-! DEFINITION. Operations that several families share: the output sequence, continuity counters, clock references, the units
and the end of a command, hold, and the starts (R9, R13, R20 to R23, R161, R162, R166 to R169). -/

namespace Sys2Proof.Machine

/-! ## Output sequence (R9, R146; notes/assumptions/6.md) -/

/-- Forwarded packets at the head of the sequence are sent in order, each completing the quiet packet before it; a free
slot, or a packet whose emission is still to be told, stops it. -/
def drainList : List OutPosition → Option Sending → List (List (BitVec 8)) →
    List OutPosition × Option Sending × List (List (BitVec 8))
  | .packet p :: rest, none, sent => drainList rest (some { bytes := p, emission := .quiet }) sent
  | .packet p :: rest, some y, sent =>
    if y.emission = .quiet then drainList rest (some { bytes := p, emission := .quiet }) (sent ++ [y.bytes])
    else (.packet p :: rest, some y, sent)
  | l, x, sent => (l, x, sent)

/-- The output goes on to the next position that needs a decision. -/
def drain (s : State) : State :=
  let x := drainList s.out.positions s.out.sending s.out.sent
  { s with out := { positions := x.1, sending := x.2.1, sent := x.2.2 } }

/-- A position joins the output sequence (R9). -/
def appendOut (pos : OutPosition) (s : State) : State :=
  drain { s with out := { s.out with positions := s.out.positions ++ [pos] } }

/-- The packet in transmission has been sent to its last byte and the output goes on. -/
def completeSending (s : State) : State :=
  match s.out.sending with
  | some y => drain { s with out := { s.out with sending := none, sent := s.out.sent ++ [y.bytes] } }
  | none => s

/-- A packet built on an OWNED identifier takes its counter's value, and the counter increments modulo 16 (R13). -/
def counterOf (s : State) (pid : Nat) : BitVec 4 := sparseGet 0 s.siu.continuity pid

/-- The counter of an identifier after a packet inserted on it (R13). -/
def bumpCounter (pid : Nat) (s : State) : State :=
  { s with siu := { s.siu with continuity := sparseSet 0 s.siu.continuity pid (counterOf s pid + 1) } }

/-- A packet of the part's own is placed: it takes its identifier's counter and is in transmission (R13, R146). -/
def place (pid : Nat) (content : List (BitVec 8)) (emission : Emission) (s : State) : State :=
  let bytes := insertedPacket pid (counterOf s pid) content
  drain { bumpCounter pid s with out := { s.out with sending := some { bytes := bytes, emission := emission } } }

/-! ## Clock references and holdover (R20 to R23) -/

/-- A reference is adopted; the candidate is absent and the holdover timer starts from it (R20 to R22). -/
def adopt (ref : StreamTime) (s : State) : State :=
  { s with tbu := { s.tbu with
      state := .tracking, adoption := some { value := ref, tick := s.tbu.tick }, candidate := none
      holdoverSince := some s.tbu.tick } }

/-- A disagreeing reference creates, confirms or replaces the candidate; the holdover timer restarts (R22). -/
def setCandidate (ref : StreamTime) (count : Nat) (s : State) : State :=
  { s with tbu := { s.tbu with
      candidate := some { value := ref, tick := s.tbu.tick, count := count }, holdoverSince := some s.tbu.tick } }

/-- The reference lies within 900 ticks of the projected candidate (R22). -/
def agreesWith (t : Tbu) (c : Candidate) (ref : StreamTime) : Bool :=
  decide ((signedDistance (c.value + (t.tick - c.tick)) ref).natAbs ≤ 900)

/-- A reference is taken (R20 to R22); an adoption is evaluated by the Match Table as an advance (R18, R37). A HOLDOVER LEFT
report is stamped with the stream time after the adoption (notes/assumptions/49.md). Adoption and evaluation are one step, so no
item falls between them, as R81 lets one fall behind a jump (notes/assumptions/52.md). -/
def takeReference (ref : StreamTime) (s : State) : State :=
  match s.now with
  | none => evaluateAll (offer (.timeAcquired ref) (adopt ref s))
  | some predicted =>
    let d := signedDistance predicted ref
    if d.natAbs ≤ 900 then
      let t := adopt ref s
      evaluateAll (if s.tbu.state = .holdover then offer (.holdoverLeft d) t else t)
    else
      match s.tbu.candidate with
      | none => setCandidate ref 1 s
      | some c =>
        if agreesWith s.tbu c ref then
          if 2 ≤ c.count then evaluateAll (offer (.timeJump d s.tbu.state) (adopt ref s)) else setCandidate ref 2 s
        else setCandidate ref 1 s

/-- The Timebase enters HOLDOVER (R23, R24). -/
def enterHoldover (s : State) : State :=
  offer .holdoverEntered
    { s with tbu := { s.tbu with state := .holdover, candidate := none, holdoverSince := none, holdoverSeen := true } }

/-- The candidate is discarded in HOLDOVER and the timer stops (R23). -/
def dropCandidate (s : State) : State := { s with tbu := { s.tbu with candidate := none, holdoverSince := none } }

/-- The holdover timer's limit is acted on as the Timebase's state gives (R23). -/
def holdoverLimitReached (s : State) : State :=
  if holdoverElapsed s then
    match s.tbu.state with
    | .tracking => enterHoldover s
    | .holdover => dropCandidate s
    | .noTime => s
  else s

/-! ## Units and ends of commands (R161, R162, R166) -/

/-- The command in execution, if this row is its next unit and the part has not gone past step 2 of hold (R161, R167). -/
def unitReady (i : Instr) (s : State) : Option Executing :=
  if s.taking then
    match s.cmu.executing with
    | some x => if x.todo.head? = some i then some x else none
    | none => none
  else none

/-- The reading commands, by kind code: READ MATCH, QUERY SEAT, READ POISON LIST, READ HOUSE LIST, READ SETTINGS (R162). -/
def readingKind (kind : BitVec 8) : Bool :=
  decide (kind = 3) || decide (kind = 19) || decide (kind = 20) || decide (kind = 24) || decide (kind = 27)

/-- The quiet bit suppresses this result: TAKEN, every code DONE, not a reading command (R162). -/
def suppressed (x : Executing) (res : CommandResult) (codes : List CodeValue) : Bool :=
  x.quiet && decide (res = .taken) && codes.all (fun c => decide (c.code = .done)) && !readingKind x.kind

/-- A command ends: its result is written or suppressed, and the progress record says so (R162, R166). -/
def endCommand (x : Executing) (applied : Nat) (res : CommandResult) (reason : RefusalReason) (detail : ResultDetail)
    (codes : List CodeValue) (s : State) : State :=
  let quiet := suppressed x res codes
  let t := if quiet then releaseReservation s else writeResult (.result x.number x.kind res reason detail codes) s
  { t with cmu := { t.cmu with
      executing := none
      progress := { number := x.number, kind := x.kind, unitCount := x.unitCount, unitsApplied := applied
                    endMethod := if quiet then .none else .complete } } }

/-- End-method while units remain: TOP UP CREDIT items add again if repeated (R166). -/
def prefixMethod (kind : BitVec 8) : EndMethod := if kind = 15 then .prefixUnsafe else .prefixSafe

/-- An item's unit has been taken with its code: the next unit follows, or the command ends (R161, R166). It ends TAKEN,
also where every one of its items was refused (R162; notes/assumptions/51.md). -/
def endItem (x : Executing) (c : CodeValue) (s : State) : State :=
  let codes := x.codes ++ [c]
  if x.todo.tail = [] then endCommand x x.unitCount .taken .none .none codes s
  else
    { s with cmu := { s.cmu with
        executing := some { x with todo := x.todo.tail, codes := codes }
        progress := { s.cmu.progress with
          unitsApplied := s.cmu.progress.unitsApplied + 1, endMethod := prefixMethod x.kind } } }

/-- The Seat Store has settled and the DRAM is in self-refresh: step 3 of hold (R74, R167). -/
def settle (s : State) : State :=
  { s with power := { s.power with phase := .holding }, sst := { s.sst with selfRefresh := true } }

/-- The progress record of a command whose unit in hand has been completed in hold (R166, R167 step 2). -/
def Executing.stopped (x : Executing) (p : Progress) : Progress :=
  if x.todo.tail = [] then
    { number := x.number, kind := x.kind, unitCount := x.unitCount, unitsApplied := x.unitCount, endMethod := .complete }
  else { p with unitsApplied := p.unitsApplied + 1, endMethod := prefixMethod x.kind }

/-- Hold stops a command behind the unit it had in hand: no RESULT is written, no further unit taken, and its reservation
lapses with the Report Queue (R167 step 2; notes/assumptions/25.md). -/
def stopCommand (x : Executing) (s : State) : State :=
  settle { s with cmu := { s.cmu with executing := none, progress := x.stopped s.cmu.progress } }

/-- A row that is one item of a command applied per item: taken when it is the next unit (R161). -/
def itemUnit (i : Instr) (f : State → CodeValue × State) (s : State) : State :=
  match unitReady i s with
  | none => s
  | some x => if s.running then endItem x (f s).1 (f s).2 else stopCommand x (f s).2

/-- What a command applied whole answers: result, reason, detail, codes and the readback it captured. -/
structure WholeOutcome where
  res : CommandResult
  reason : RefusalReason
  detail : ResultDetail
  codes : List CodeValue
  readback : Option (List (BitVec 8))
deriving DecidableEq, Repr

/-- TAKEN without codes. -/
def WholeOutcome.taken : WholeOutcome := { res := .taken, reason := .none, detail := .none, codes := [], readback := none }

/-- TAKEN with one code. -/
def WholeOutcome.coded (c : ItemCode) : WholeOutcome := { WholeOutcome.taken with codes := [{ code := c, value := 0 }] }

/-- REFUSED with a reason. -/
def WholeOutcome.refused (r : RefusalReason) : WholeOutcome := { WholeOutcome.taken with res := .refused, reason := r }

/-- REFUSED, reason BAD_FIELD, naming the field. -/
def WholeOutcome.badField (f : FieldName) : WholeOutcome :=
  { WholeOutcome.taken with res := .refused, reason := .badField, detail := .field f }

/-- The end of a command applied whole; a READBACK follows its RESULT (R162). -/
def endWhole (x : Executing) (o : WholeOutcome) (s : State) : State :=
  let t := endCommand x x.unitCount o.res o.reason o.detail o.codes s
  match o.readback with
  | some data => offerReadback x.number data t
  | none => t

/-- A row that is a command applied whole: taken when it is the next unit (R161). -/
def wholeUnit (i : Instr) (f : State → WholeOutcome × State) (s : State) : State :=
  match unitReady i s with
  | none => s
  | some x => if s.running then endWhole x (f s).1 (f s).2 else stopCommand x (f s).2

/-! ## Hold and starts (R167, R168, R75 and the reset tables) -/

/-- The part enters hold: a command in execution may complete the unit it has in hand, and where there is none the Seat Store
settles (R167). -/
def enterHold (forRestart : Bool) (s : State) : State :=
  let t := { s with power := { s.power with phase := .finishing, restartHold := forRestart } }
  if s.cmu.executing.isSome then t else settle t

/-- The DRAM's content is undefined: the next free value of Config (notes/assumptions/8.md). -/
def loseDram (s : State) : State :=
  { s with
    sst := { s.sst with
      rows := sparseOf clearedRow cohortCount
        ((Config.lostRows s.frees).map fun x => (x.1, { content := x.2.1, digest := x.2.2 }))
      records := sparseOf clearedRecord seatCount
        ((Config.lostRecords s.frees).map fun x => (x.1, { content := x.2.1, digest := x.2.2 })) }
    frees := s.frees + 1 }

/-- What is neither retained nor volatile: unit key, DRAM, the outside's record and the model's counters. -/
def keepOutside (s t : State) : State :=
  { t with
    sst := { t.sst with rows := s.sst.rows, records := s.sst.records }
    cmu := { t.cmu with unitKey := s.cmu.unitKey }
    out := { t.out with sent := s.out.sent }
    draws := s.draws, frees := s.frees, pending := s.pending }

/-- A COLD start; a failed retained check is the first fault and its report comes first (R75, R178). -/
def coldStart (checkFailed : Bool) (s : State) : State :=
  let t := keepOutside s State.reset
  if checkFailed then
    let f : FaultRecord := { FaultRecord.clear with held := true, cls := .retainedCheck }
    { t with rpu := { t.rpu with fault := f, entries := { stamp := 0, body := .faultFirst f } :: t.rpu.entries } }
  else t

/-- An epoch record after a warm start: a SWEEPING slot owes Rollover Passes full passes (R128). -/
def EpochRecord.warm (r : EpochRecord) (passes : Nat) : EpochRecord :=
  match r.rollover with
  | .sweeping => { r with passesLeft := passes }
  | .steady => r
  | .pending => r
  | .switching => r

/-- A slot of the Match Table after a warm start: its staged record is gone (R49). -/
def MatchSlot.warm (x : MatchSlot) : MatchSlot := { x with staged := none }

/-- A slot of the Epoch Controller after a warm start (R120, R128). -/
def EpochSlot.warm (x : EpochSlot) (passes : Nat) : EpochSlot :=
  { record := x.record.map fun r => r.warm passes, ageTicks := 0 }

/-- Word Message state after a warm start: the timer restarts in PREVIEW through ENDED and no message is due (R128, R155). -/
def WordTimer.warm (x : MatchSlot) : WordTimer := if x.state.words then { due := none, timer := some 0 } else .stopped

/-- A WARM start (WARM and RESTART columns of R16, R29, R49, R75, R128, R145, R155, R169, R177; the reports of R168). -/
def warmStart (cause : RestartCause) (s : State) : State :=
  let t := keepOutside s State.reset
  { t with
    siu := { t.siu with pidMap := s.siu.pidMap }
    tbu := { t.tbu with periodLength := s.settings.cryptoPeriod * 90000 }
    mtb := s.mtb.map MatchSlot.warm
    epc := s.epc.map fun x => x.warm s.settings.rolloverPasses
    sst := { t.sst with
      poison := s.sst.poison, house := s.sst.house, signature := s.sst.signature, store := .verifying
      walk := some { kind := .verify, cohort := 0, rowSkips := 0, seatSkips := 0 } }
    ina := { t.ina with
      words := s.mtb.map WordTimer.warm, paceTimer := if s.settings.grantPace = 0 then none else some 0 }
    cmu := { t.cmu with
      lastAccepted := s.cmu.lastAccepted, progress := s.cmu.progress, rootKey := s.cmu.rootKey }
    settings := s.settings
    rpu := { t.rpu with
      entries := [{ stamp := 0, body := .restart cause s.cmu.lastAccepted s.cmu.progress },
                  { stamp := 0, body := .storeVerifying }]
      fault := s.rpu.fault } }

/-- A reset: WARM if the retained check word holds and VBAK was not lost, COLD otherwise (R75). -/
def start (cause : RestartCause) (s : State) : State :=
  if s.power.checkHolds && !s.power.vbakLost then warmStart cause s else coldStart (!s.power.checkHolds) s

end Sys2Proof.Machine
end

