-- ==== Sys2Proof/Machine/CommandBody.lean ====
section
/-! DEFINITION. The fields of a command body (spec 12.2 to 12.4) and the start of a command (R159 to R161, R166, R180). -/

namespace Sys2Proof.Machine

/-! ## Match record and load images (spec 12.4) -/

/-- The blackout set that 32 bytes carry: bit j of byte k stands for region 8k + j. -/
def blackoutOf (l : List (BitVec 8)) : BitVec 256 := BitVec.ofNat 256 (beNat l.reverse)

/-- A match record's 79 bytes, its fields as wide as they stand. -/
def matchImageOf (l : List (BitVec 8)) : MatchImage :=
  { matchId := BitVec.ofNat 32 (numAt l 0 4)
    pidCount := numAt l 4 1
    pids := Vector.ofFn fun i => numAt l (5 + 2 * i.val) 2
    wordPid := numAt l 13 2
    saleOpen := numAt l 15 5
    earlyClose := numAt l 20 5
    showStart := numAt l 25 5
    previewLen := numAt l 30 2
    scheduledLen := numAt l 32 2
    lateCutoff := numAt l 34 2
    overrunMax := numAt l 36 2
    endHold := numAt l 38 2
    earlyPrice := numAt l 40 2
    standardPrice := numAt l 42 2
    lateFloor := numAt l 44 2
    failPolicy := numAt l 46 1
    blackout := blackoutOf (bytesAt l 47 32) }

/-- A row image's 100 bytes. -/
def rowImageOf (l : List (BitVec 8)) : RowImage :=
  { region := Vector.ofFn fun i => byteAt l i.val
    purchase := Vector.ofFn fun i => BitVec.ofNat 32 (numAt l (32 + 4 * i.val) 4)
    suspend := BitVec.ofNat 32 (numAt l 96 4) }

/-- A record image's 35 bytes. -/
def recordImageOf (l : List (BitVec 8)) : RecordImage :=
  { credit := BitVec.ofNat 16 (numAt l 0 2)
    paid := Vector.ofFn fun i => BitVec.ofNat 16 (numAt l (2 + 2 * i.val) 2)
    sat := byteAt l 34 }

/-! ## Kinds and items (spec 12.2, 12.3) -/

/-- What a kind's items take: the range of the item count, the bytes that stand once, the bytes of one item. -/
structure ItemForm where
  lo : Nat
  hi : Nat
  once : Nat
  each : Nat
deriving DecidableEq, Repr

/-- No items. -/
def ItemForm.none : ItemForm := { lo := 0, hi := 0, once := 0, each := 0 }

/-- One item of n bytes. -/
def ItemForm.one (n : Nat) : ItemForm := { lo := 1, hi := 1, once := 0, each := n }

/-- One to k items of n bytes. -/
def ItemForm.upTo (k n : Nat) : ItemForm := { lo := 1, hi := k, once := 0, each := n }

/-- The form of the items of a kind code; a code that is no command's has none (section 10.5, spec 12.2, 12.3). -/
def itemForm (kind : Nat) : Option ItemForm :=
  match kind with
  | 1 => some (.one 80)
  | 2 => some (.one 2)
  | 3 => some (.one 1)
  | 4 => some (.one 1)
  | 5 => some (.one 1)
  | 6 => some (.one 1)
  | 7 => some { lo := 1, hi := 32, once := 2, each := 1 }
  | 8 => some (.one 1)
  | 9 => some (.upTo 24 5)
  | 10 => some (.upTo 24 4)
  | 11 => some (.upTo 24 4)
  | 12 => some (.upTo 24 3)
  | 13 => some (.upTo 24 3)
  | 14 => some (.upTo 24 4)
  | 15 => some (.upTo 24 5)
  | 16 => some (.upTo 24 3)
  | 17 => some (.one 102)
  | 18 => some (.upTo 4 38)
  | 19 => some (.one 3)
  | 20 => some .none
  | 21 => some .none
  | 22 => some (.one 3)
  | 23 => some (.one 3)
  | 24 => some .none
  | 25 => some (.upTo 16 3)
  | 26 => some (.upTo 16 5)
  | 27 => some .none
  | 28 => some (.one 32)
  | 29 => some .none
  | 30 => some .none
  | 31 => some .none
  | _ => Option.none

/-- The row that one item of a command applied per item stands for. -/
def itemOf (kind : Nat) (l : List (BitVec 8)) : Option Instr :=
  match kind with
  | 9 => some (.purchase (numAt l 0 3) (numAt l 3 1) (numAt l 4 1))
  | 10 => some (.refund (numAt l 0 3) (numAt l 3 1))
  | 11 => some (.withdraw (numAt l 0 3) (numAt l 3 1))
  | 12 => some (.suspend (numAt l 0 3))
  | 13 => some (.resume (numAt l 0 3))
  | 14 => some (.setRegion (numAt l 0 3) (byteAt l 3))
  | 15 => some (.topUpCredit (numAt l 0 3) (numAt l 3 2))
  | 16 => some (.clearSeatMarks (numAt l 0 3))
  | 18 => some (.loadSeatRecords (numAt l 0 3) (recordImageOf (bytesAt l 3 35)))
  | 25 => some (.setPidClass (numAt l 0 2) (numAt l 2 1))
  | _ => none

/-- The slots of a schedule mask, in slot order (R33). -/
def maskSlots (mask : Nat) : List SlotId := slotList.filter fun m => mask.testBit m.val

/-- The units of a command, each as the row that stands for it (R161, section 10.5). -/
def unitsOf (kind count : Nat) (items : List (BitVec 8)) : List Instr :=
  match kind with
  | 1 => [.defineMatch (numAt items 0 1) (matchImageOf (items.drop 1))]
  | 2 => (maskSlots (numAt items 0 2)).map .commitSchedule
  | 3 => [.readMatch (numAt items 0 1)]
  | 4 => [.finalWhistle (numAt items 0 1)]
  | 5 => [.abandonMatch (numAt items 0 1)]
  | 6 => [.clearSlot (numAt items 0 1)]
  | 7 => [.setBlackout (numAt items 0 1) (numAt items 1 1) (bytesAt items 2 count)]
  | 8 => [.forceRollover (numAt items 0 1)]
  | 17 => [.loadCohortRow (numAt items 0 2) (rowImageOf (items.drop 2))]
  | 19 => [.querySeat (numAt items 0 3)]
  | 20 => [.readPoisonList]
  | 21 => [.clearStore]
  | 22 => [.addHouseSeat (numAt items 0 3)]
  | 23 => [.removeHouseSeat (numAt items 0 3)]
  | 24 => [.readHouseList]
  | 26 => [.setSettings ((groups 5 count items).map fun g => (numAt g 0 1, numAt g 1 4))]
  | 27 => [.readSettings]
  | 28 => [.setRootKey (BitVec.ofNat 256 (numAt items 0 32))]
  | 29 => [.releaseFault]
  | 30 => [.clearStatusMarks]
  | 31 => [.restart]
  | k =>
    match itemForm k with
    | some f => (groups f.each count items).filterMap (itemOf k)
    | Option.none => []

/-! ## The start of a command (R159, R160, R166, R180) -/

/-- The guard's failing field, if any (R160 check 3, R180). Where slot and value are both bad the slot is named
(notes/assumptions/48.md). -/
def guardFault (kind slot value : Nat) : Option FieldName :=
  if 2 < kind then some .guardKind
  else if kind = 0 then none
  else if 15 < slot then some .guardSlot
  else if kind = 1 ∧ 1024 ≤ value then some .guardValue
  else none

/-- The guard is true (R160 check 4). -/
def guardTrue (s : State) (kind slot value : Nat) : Bool :=
  match slotOf slot with
  | none => decide (kind = 0)
  | some m =>
    if kind = 0 then true
    else if kind = 1 then value.testBit (s.slot m).state.code
    else match s.record m with | some r => decide (r.epoch.toNat = value) | none => false

/-- How the checks of R160 judge a command body, before anything is applied. -/
inductive StartVerdict where
  /-- the command ends at its start with this result, detail and unit count -/
  | ends (res : CommandResult) (reason : RefusalReason) (detail : ResultDetail) (unitCount : Nat)
  /-- the command goes on to its units -/
  | runs (todo : List Instr)
deriving DecidableEq, Repr

/-- The items of a command body as it arrived: what stands between the item count and the check word (spec 12.2). -/
def itemBytes (body : List (BitVec 8)) : List (BitVec 8) := (body.take (body.length - 8)).drop 13

/-- The unit count of a command of a defined kind, whether or not its items are well-formed: one for a command applied whole,
the bits of the mask for COMMIT SCHEDULE, the item count for a command applied per item (section 10.5, R166). A BAD_LENGTH command's item count is kept as it
is where it lies above the 24 that the progress record's table allows (notes/assumptions/20.md). -/
def unitCountOf (kind count : Nat) (items : List (BitVec 8)) : Nat :=
  if kind = 2 then (maskSlots (numAt items 0 2)).length
  else if (itemOf kind items).isSome then count
  else 1

/-- The checks of R160 on a command body. -/
def judgeBody (s : State) (body : List (BitVec 8)) : StartVerdict :=
  let kind := numAt body 6 1
  let count := numAt body 12 1
  match itemForm kind with
  | none => .ends .badKind .none .none 0
  | some f =>
    if count < f.lo ∨ f.hi < count ∨ numAt body 0 2 ≠ 21 + f.once + f.each * count then
      .ends .badLength .none .none (unitCountOf kind count (itemBytes body))
    else
      let todo := unitsOf kind count (body.drop 13)
      match guardFault (numAt body 7 1) (numAt body 8 1) (numAt body 9 2) with
      | some field => .ends .refused .badField (.field field) todo.length
      | none =>
        if guardTrue s (numAt body 7 1) (numAt body 8 1) (numAt body 9 2) then .runs todo
        else .ends .skipped .none .none todo.length

/-- The command at its start, its units still to take. -/
def startOf (q : QueuedCommand) (unitCount : Nat) (todo : List Instr) : Executing :=
  { number := q.number, kind := byteAt q.body 6, quiet := (byteAt q.body 11).getLsbD 0, unitCount := unitCount, todo := todo,
    codes := [] }

/-- The head command leaves the Command Queue and one place of the Report Queue is reserved (R159). -/
def reserve (rest : List QueuedCommand) (s : State) : State :=
  { s with cmu := { s.cmu with queue := rest }, rpu := { s.rpu with reserved := true } }

/-- The command is in execution, its progress record NOT_STARTED (R166). -/
def beginCommand (x : Executing) (s : State) : State :=
  { s with cmu := { s.cmu with
      executing := some x
      progress := { number := x.number, kind := x.kind, unitCount := x.unitCount, unitsApplied := 0
                    endMethod := .notStarted } } }

/-- A command that has left the queue goes on to its units, or ends at once: by R160, or TAKEN where it has no unit
(R33; notes/assumptions/21.md). -/
def startCommand (q : QueuedCommand) (s : State) : State :=
  match judgeBody s q.body with
  | .ends res reason detail n => endCommand (startOf q n []) 0 res reason detail [] s
  | .runs [] => endCommand (startOf q 0 []) 0 .taken .none .none [] s
  | .runs (i :: rest) => beginCommand (startOf q (rest.length + 1) (i :: rest)) s

/-- The command at the head of the queue may start (R159). -/
def mayStart (s : State) : Bool := s.running && s.cmu.executing.isNone && decide (s.rpu.places < 64)

/-- COMMAND_START: the command at the head of the Command Queue starts (R159, R160). -/
def execCommandStart (s : State) : Host.Outcome State Fault Refusal :=
  .next (match s.cmu.queue with
    | q :: rest => if mayStart s then startCommand q (reserve rest s) else s
    | [] => s)

end Sys2Proof.Machine
end

