-- ==== Sys2Proof/Machine/Insertion.lean ====
section
/-! DEFINITION. The rows of the output side: the Insertion Arbiter's choice for a free slot, emissions, and the sweep's builder
(R110, R119, R129 to R138, R144, R146 to R155, R172, R173). -/

namespace Sys2Proof.Machine

/-- The free slot that the output has reached, if one is at the head of the output sequence and no packet whose emission is
still to be told is in transmission: where it came from, and the state with the slot taken (R146). -/
def takeFree (s : State) : Option (FreeSource × State) :=
  match s.out.positions with
  | .free src :: rest =>
    match s.out.sending with
    | none => some (src, { s with out := { s.out with positions := rest } })
    | some y =>
      if y.emission = .quiet then
        some (src, { s with out := { positions := rest, sending := none, sent := s.out.sent ++ [y.bytes] } })
      else none
  | .packet _ :: _ => none
  | [] => none

/-! ## Candidates (R146 to R154) -/

/-- Slot m's due was set earlier than slot b's; dues of one tick go in slot order (R147). -/
def dueBefore (s : State) (m b : SlotId) : Bool :=
  match (s.wordTimer m).due, (s.wordTimer b).due with
  | some t, some u => decide (ticksBetween u s.tbu.tick < ticksBetween t s.tbu.tick)
  | some _, none => true
  | none, _ => false

/-- The slot whose Word Message due was set earliest (R147). -/
def earliestDue (s : State) : Option SlotId :=
  slotList.foldl
    (fun best m =>
      if (s.wordTimer m).due.isSome then
        match best with
        | none => some m
        | some b => if dueBefore s m b then some m else some b
      else best)
    none

/-- Slot m's Word Message is built and placed, its due cleared and its timer left running (R124, R147). -/
def placeWord (m : SlotId) (rec : MatchRecord) (r : EpochRecord) (s : State) : State :=
  place rec.wordPid (wordContent m rec r) .quiet (s.setWordTimer m { s.wordTimer m with due := none })

/-- The Status Summary is built and placed, and its due cleared (R148, R173). -/
def placeSummary (s : State) : State :=
  place s.settings.reportPid (summaryContent s) .quiet { s with ina := { s.ina with statusDue := false } }

/-- A report packet takes its entries from the head of the Report Queue and is placed (R149, R172). -/
def placeReport (s : State) : State :=
  let n := entriesThatFit 8 183 s.rpu.entries
  let es := s.rpu.entries.take n
  place s.settings.reportPid (reportContent es) (.report (es.filterMap fun e => e.body.resultOf))
    { s with rpu := { s.rpu with entries := s.rpu.entries.drop n } }

/-- The bytes of the null packet for a free slot (R154). -/
def nullFor : FreeSource → List (BitVec 8)
  | .inputNull p => p
  | .removed => nullPacket
  | .badSync => nullPacket
  | .fill => nullPacket

/-- A null packet fills the free slot; no counter is used (R154). -/
def placeNull (src : FreeSource) (s : State) : State :=
  drain { s with out := { s.out with sending := some { bytes := nullFor src, emission := .quiet } } }

/-- One grant credit is taken, unless the pace is lifted (R150, R152). -/
def payCredit (lifted : Bool) (s : State) : State :=
  if lifted then s else { s with ina := { s.ina with credits := s.ina.credits - 1 } }

/-- The ready sweep packet is placed where one is ready, and a null packet otherwise (R133, R153). -/
def placeSweep (lifted : Bool) (src : FreeSource) (s : State) : State :=
  match s.gcr.ready with
  | some p =>
    let t := pack { s with gcr := { s.gcr with ready := none }, ina := { s.ina with freshRun := 0 } }
    place s.settings.grantPid (grantContent p.entries) (.sweep p.entries p.passEnd) (payCredit lifted t)
  | none => placeNull src s

/-- The fresh run after a fresh placement (R153). -/
def nextRun (run limit : Nat) : Nat := if run < limit then run + 1 else limit

/-- A fresh packet that a fresh build has made is placed (R136, R153). -/
def placeFresh (lifted : Bool) (es : List GrantEntry) (pairs : List FreshPair) (s : State) : State :=
  place s.settings.grantPid (grantContent es) (.fresh es pairs)
    (payCredit lifted { s with ina := { s.ina with freshRun := nextRun s.ina.freshRun s.settings.freshRunLimit } })

/-- Fresh is available: the Fresh Queue holds an entry, and the part is not in hold (R141, R144; notes/assumptions/23.md). -/
def freshAvailable (s : State) : Bool := s.running && decide (s.gcr.fresh ≠ [])

/-- The choice between fresh and sweep; a fresh build that yields no packet has the choice made again (R137, R153). -/
def placeGrant (lifted : Bool) (src : FreeSource) (s : State) : State :=
  if freshAvailable s && !(s.gcr.ready.isSome && decide (s.settings.freshRunLimit ≤ s.ina.freshRun)) then
    let x := freshBuild s
    if x.1 = [] then placeSweep lifted src x.2.2 else placeFresh lifted x.1 x.2.1 x.2.2
  else placeSweep lifted src s

/-- The candidates after the Word Messages (R146). -/
def placeUnworded (src : FreeSource) (s : State) : State :=
  if s.ina.statusDue then placeSummary s
  else if s.rpu.entries ≠ [] then placeReport s
  else if s.paceLifted || decide (0 < s.ina.credits) then placeGrant s.paceLifted src s
  else placeNull src s

/-- The free slot is given to the first candidate that applies (R146). -/
def fillFree (src : FreeSource) (s : State) : State :=
  match earliestDue s with
  | some m =>
    match s.live m, s.record m with
    | some rec, some r => placeWord m rec r s
    | _, _ => placeUnworded src s
  | none => placeUnworded src s

/-- FREE_SLOT: the Insertion Arbiter takes the free slot that the output has reached (R146). -/
def execFreeSlot (s : State) : Host.Outcome State Fault Refusal :=
  .next (if s.streaming then
      match takeFree s with
      | some x => fillFree x.1 x.2
      | none => s
    else s)

/-! ## Emissions (R110, R131, R133, R138, R166, R172) -/

/-- What the emission of a grant message does at the Epoch Controller and the carousel. -/
def grantEmitted (e : Emission) (s : State) : State :=
  match e with
  | .sweep es passEnd =>
    let t := es.foldl issueEntry s
    if passEnd then wrapEvent t else t
  | .fresh es pairs =>
    let t := es.foldl issueEntry s
    { t with gcr := { t.gcr with fresh := pairs.foldl requeuePair t.gcr.fresh } }
  | .quiet => s
  | .report _ => s

/-- The packet in transmission is a grant message. -/
def Emission.isGrant : Emission → Bool
  | .sweep _ _ => true
  | .fresh _ _ => true
  | .quiet => false
  | .report _ => false

/-- GRANT_MESSAGE_EMITTED: the last byte of the grant message in transmission has been sent (R133). -/
def execGrantMessageEmitted (s : State) : Host.Outcome State Fault Refusal :=
  .next (match s.out.sending with
    | some y => if s.streaming && y.emission.isGrant then completeSending (grantEmitted y.emission s) else s
    | none => s)

/-- The results that a report packet carried have left the part (R166). -/
def resultsLeft (ns : List (BitVec 32)) (s : State) : State :=
  { s with cmu := { s.cmu with progress := ns.foldl Progress.release s.cmu.progress } }

/-- REPORT_PACKET_EMITTED: the last byte of the report packet in transmission has been sent (R166, R172). -/
def execReportPacketEmitted (s : State) : Host.Outcome State Fault Refusal :=
  .next (match s.out.sending with
    | some y =>
      match y.emission with
      | .report ns => if s.streaming then completeSending (resultsLeft ns s) else s
      | .quiet => s
      | .sweep _ _ => s
      | .fresh _ _ => s
    | none => s)

/-- SWEEP_STEP: the builder takes a cohort step, if R130 allows one (R129 to R132). -/
def execSweepStep (s : State) : Host.Outcome State Fault Refusal := .next (if s.mayStep then builderStep s else s)

end Sys2Proof.Machine
end

