-- ==== Sys2Proof/Machine/MatchCommands.lean ====
section
/-! DEFINITION. The rows of the Match Table's commands and FORCE ROLLOVER (R7, R31 to R36, R39, R40, R42, R44, R45, R109,
R113). -/

namespace Sys2Proof.Machine

/-! ## DEFINE MATCH (R32, R180) -/

/-- The identifier fields of a match image that are checked: the counted service PIDs, then the Word PID. -/
def imageIdentifiers (i : MatchImage) : List (FieldName × Nat) :=
  ([(FieldName.servicePid 0, i.pids.get 0), (.servicePid 1, i.pids.get 1), (.servicePid 2, i.pids.get 2),
    (.servicePid 3, i.pids.get 3)].take i.pidCount) ++ [(.wordPid, i.wordPid)]

/-- The stream time fields of a match image. -/
def imageTimes (i : MatchImage) : List (FieldName × Nat) :=
  [(.saleOpen, i.saleOpen), (.earlyClose, i.earlyClose), (.showStart, i.showStart)]

/-- The first field of a list above a bound. -/
def firstAbove (bound : Nat) (l : List (FieldName × Nat)) : Option FieldName :=
  (l.find? fun p => decide (bound < p.2)).map (·.1)

/-- Check 6 of R32: a duration outside its range. -/
def imageBadDuration (i : MatchImage) : Option FieldName :=
  if 1800 < i.previewLen then some .previewLen
  else if i.scheduledLen < 60 ∨ 21600 < i.scheduledLen then some .scheduledLen
  else if 7200 < i.overrunMax then some .overrunMax
  else if 3600 < i.endHold then some .endHold
  else none

/-- Checks 2 to 8 of R32: the first failing field. Within checks 4, 5 and 6 the fields are taken in the order of the record
(notes/assumptions/41.md). -/
def imageBadField (i : MatchImage) : Option FieldName :=
  if i.matchId = 0 then some .matchId
  else if i.pidCount < 1 ∨ 4 < i.pidCount then some .pidCount
  else
    ((((firstAbove 8191 (imageIdentifiers i)).or (firstAbove 8589934591 (imageTimes i))).or (imageBadDuration i)).or
      (if i.scheduledLen < i.lateCutoff then some .lateCutoff else none)).or
      (if 1 < i.failPolicy then some .failPolicy else none)

/-- The record that a match image which passed its checks makes. -/
def imageRecord (i : MatchImage) : MatchRecord :=
  { matchId := i.matchId, servicePids := i.pids.toList.take i.pidCount, wordPid := i.wordPid
    saleOpen := BitVec.ofNat 33 i.saleOpen, earlyClose := BitVec.ofNat 33 i.earlyClose
    showStart := BitVec.ofNat 33 i.showStart, previewLen := i.previewLen, scheduledLen := i.scheduledLen
    lateCutoff := i.lateCutoff, overrunMax := i.overrunMax, endHold := i.endHold, earlyPrice := i.earlyPrice
    standardPrice := i.standardPrice, lateFloor := i.lateFloor
    failPolicy := if i.failPolicy = 0 then .openPolicy else .closedPolicy, blackout := i.blackout }

/-- Slot m's staged record replaced. -/
def stage (m : SlotId) (rec : Option MatchRecord) (s : State) : State := s.setSlot m { s.slot m with staged := rec }

/-- DEFINE MATCH as the Match Table takes it (R32). -/
def defineMatch (slot : Nat) (img : MatchImage) (s : State) : WholeOutcome × State :=
  match slotOf slot with
  | none => (.badField .slot, s)
  | some m =>
    match imageBadField img with
    | some f => (.badField f, s)
    | none => (.taken, stage m (some (imageRecord img)) s)

/-- DEFINE_MATCH (R32). -/
def execDefineMatch (slot : Nat) (img : MatchImage) (s : State) : Host.Outcome State Fault Refusal :=
  .next (wholeUnit (.defineMatch slot img) (defineMatch slot img) s)

/-! ## COMMIT SCHEDULE (R7, R33 to R36, R109) -/

/-- The span and horizon of R33: 12 hours of ticks. -/
def horizon : Int := 3888000000

/-- Check 3 of R33. -/
def outOfOrder (r : MatchRecord) : Bool :=
  decide (signedDistance r.saleOpen r.earlyClose < 0) || decide (signedDistance r.earlyClose r.showStart < 0) ||
  decide (r.scheduledLen ≤ r.previewLen)

/-- Check 4 of R33. -/
def tooLong (r : MatchRecord) : Bool :=
  decide (horizon < signedDistance r.saleOpen r.showStart + ((r.scheduledLen + r.overrunMax + r.endHold) * 90000 : Nat))

/-- Check 5 of R33. -/
def outOfHorizon (r : MatchRecord) (now : StreamTime) : Bool :=
  decide (horizon < signedDistance now r.saleOpen) || decide (horizon < signedDistance now r.latestClose) ||
  reached r.latestClose now

/-- An identifier can be claimed: its class is PASS or DROP (R7). -/
def claimable (u : Siu) (pid : Nat) : Bool := decide (u.classOf pid = .pass) || decide (u.classOf pid = .drop)

/-- The claim of a record's identifiers is accepted (R7). -/
def claimAccepted (u : Siu) (r : MatchRecord) : Bool := r.claims.all (claimable u) && decide r.claims.Nodup

/-- The claims of slot m are entered in the PID Map (R7). -/
def claim (m : SlotId) (r : MatchRecord) (u : Siu) : Siu :=
  ((r.servicePids.foldl (fun v p => v.setClass p (.service m)) u).setClass r.wordPid (.ownedWord m)).zeroCounter r.wordPid

/-- The record as committed: late_floor lowered to standard_price where it is above it (R35). -/
def MatchRecord.committed (r : MatchRecord) : MatchRecord :=
  { r with lateFloor := min r.lateFloor r.standardPrice }

/-- DONE or CLAMPED (R35). -/
def commitCode (r : MatchRecord) : ItemCode := if r.standardPrice < r.lateFloor then .clamped else .done

/-- A fresh epoch record, its key and words the next three draws (R109). -/
def freshRecord (n : Nat) : EpochRecord :=
  { epoch := 0, currentKey := { serial := n }, issued := false, rollover := .steady, pendingKey := none, passesLeft := 0,
    sweepAge := 0, redo := false, evenWord := { serial := n + 1 }, oddWord := { serial := n + 2 }, phase := .even,
    epochAge := 0, cause := none }

/-- A commit into an EMPTY slot whose claim is accepted (R34, R109). -/
def commitEmpty (m : SlotId) (r : MatchRecord) (s : State) : State :=
  let s := { s with siu := claim m r s.siu, draws := s.draws + 3 }.setEpochSlot m
    { record := some (freshRecord s.draws), ageTicks := 0 }
  enterState m .scheduled .commit (s.setSlot m { s.slot m with live := some r.committed, staged := none, endMark := none })

/-- The staged record differs from the live one in its match id or identifiers (R34). -/
def fixedDiffers (live staged : MatchRecord) : Bool :=
  decide (live.matchId ≠ staged.matchId) || decide (live.servicePids ≠ staged.servicePids) ||
  decide (live.wordPid ≠ staged.wordPid)

/-- A commit into ON_SALE owes a revocation notice: a region newly blacked out, or the policy hardened (R36). -/
def hardens (old new : MatchRecord) : Bool :=
  decide (new.blackout &&& ~~~ old.blackout ≠ 0) ||
  (decide (old.failPolicy = .openPolicy) && decide (new.failPolicy = .closedPolicy))

/-- A commit into SCHEDULED or ON_SALE (R34, R36). -/
def commitLive (m : SlotId) (old new : MatchRecord) (s : State) : State :=
  let t := s.setSlot m { s.slot m with live := some new.committed, staged := none }
  if (s.slot m).state = .onSale ∧ hardens old new then revoke m t else t

/-- The slot of a commit is judged by its state (R34). -/
def commitByState (m : SlotId) (r : MatchRecord) (s : State) : ItemCode × State :=
  match (s.slot m).state with
  | .empty => if claimAccepted s.siu r then (commitCode r, commitEmpty m r s) else (.pidConflict, s)
  | .scheduled | .onSale =>
    match s.live m with
    | some old => if fixedDiffers old r then (.fixedField, s) else (commitCode r, commitLive m old r s)
    | none => (.tooLate, s)
  | .preview | .live | .extended | .ended | .abandoned | .closed | .wiping => (.tooLate, s)

/-- One slot of a COMMIT SCHEDULE (R33). -/
def commitItem (m : SlotId) (s : State) : ItemCode × State :=
  match (s.slot m).staged with
  | none => (.notStaged, s)
  | some r =>
    match s.now with
    | none => (.noTime, s)
    | some now =>
      if outOfOrder r || tooLong r || outOfHorizon r now then (.badTimes, s) else commitByState m r s

/-- COMMIT_SCHEDULE: one slot of the mask (R33 to R36). -/
def execCommitSchedule (m : SlotId) (s : State) : Host.Outcome State Fault Refusal :=
  .next (itemUnit (.commitSchedule m) (fun t => ({ code := (commitItem m t).1, value := 0 }, (commitItem m t).2)) s)

/-! ## READ MATCH (R45) -/

/-- The live record's fields in a readback, in the layout in which DEFINE MATCH carries them (notes/assumptions/15.md). -/
def MatchRecord.bytes (r : MatchRecord) : List (BitVec 8) :=
  beBytes 4 r.matchId.toNat ++ beBytes 1 r.servicePids.length ++
  (r.servicePids ++ List.replicate (4 - r.servicePids.length) 0).flatMap (fun p => beBytes 2 p) ++ beBytes 2 r.wordPid ++
  beBytes 5 r.saleOpen.toNat ++ beBytes 5 r.earlyClose.toNat ++ beBytes 5 r.showStart.toNat ++ beBytes 2 r.previewLen ++
  beBytes 2 r.scheduledLen ++ beBytes 2 r.lateCutoff ++ beBytes 2 r.overrunMax ++ beBytes 2 r.endHold ++
  beBytes 2 r.earlyPrice ++ beBytes 2 r.standardPrice ++ beBytes 2 r.lateFloor ++ beBytes 1 r.failPolicy.code ++
  (beBytes 32 r.blackout.toNat).reverse

/-- The epoch record without its keys and words (R45). -/
def EpochRecord.bytes (r : EpochRecord) : List (BitVec 8) :=
  beBytes 2 r.epoch.toNat ++ [flagByte r.issued] ++ beBytes 1 r.rollover.code ++ beBytes 1 r.passesLeft ++
  [flagByte r.redo] ++ beBytes 1 r.phase.code ++ beBytes 2 r.epochAge

/-- The live record's 79 bytes of a READ MATCH readback, 0 where there is none to fill them (R45, R181). -/
def liveRecordBytes : Option MatchRecord → List (BitVec 8)
  | some r => r.bytes
  | none => List.replicate 79 0

/-- The epoch record's 9 bytes of a READ MATCH readback, 0 where there is none to fill them (R45, R181). -/
def epochRecordBytes : Option EpochRecord → List (BitVec 8)
  | some r => r.bytes
  | none => List.replicate 9 0

/-- The READ MATCH readback of slot m, an absent end mark carrying 0 (R181); for an EMPTY slot, the state and the staged flag
alone (R45). -/
def matchData (m : SlotId) (s : State) : List (BitVec 8) :=
  beBytes 1 (s.slot m).state.code ++ [flagByte (s.slot m).staged.isSome] ++
  (if (s.slot m).state = .empty then []
   else
    liveRecordBytes (s.live m) ++ endMarkBytes (s.slot m).endMark ++ epochRecordBytes (s.record m))

/-- READ MATCH as the Match Table takes it (R45). -/
def readMatch (slot : Nat) (s : State) : WholeOutcome × State :=
  match slotOf slot with
  | none => (.badField .slot, s)
  | some m => ({ WholeOutcome.taken with readback := some (matchData m s) }, s)

/-- READ_MATCH (R45). -/
def execReadMatch (slot : Nat) (s : State) : Host.Outcome State Fault Refusal :=
  .next (wholeUnit (.readMatch slot) (readMatch slot) s)

/-! ## Commands that move a slot (R39, R40, R42) -/

/-- A command on a slot whose number is at most 15; a greater number is refused BAD_FIELD (R47). -/
def onSlot (slot : Nat) (f : SlotId → State → WholeOutcome × State) (s : State) : WholeOutcome × State :=
  match slotOf slot with
  | none => (.badField .slot, s)
  | some m => f m s

/-- The end mark of a whistle (R39). -/
def whistleMark (r : MatchRecord) (now : Option StreamTime) : StreamTime :=
  match now with
  | some t => laterOf r.scheduledEnd t
  | none => r.scheduledEnd

/-- FINAL WHISTLE on a slot (R39). -/
def whistle (m : SlotId) (s : State) : WholeOutcome × State :=
  match s.live m with
  | some r =>
    if (s.slot m).state = .live ∨ (s.slot m).state = .extended then
      (.taken, enterEnded m (whistleMark r s.now) .whistle s)
    else (.refused .wrongState, s)
  | none => (.refused .wrongState, s)

/-- FINAL_WHISTLE (R39). -/
def execFinalWhistle (slot : Nat) (s : State) : Host.Outcome State Fault Refusal :=
  .next (wholeUnit (.finalWhistle slot) (onSlot slot whistle) s)

/-- ABANDON MATCH on a slot (R40, R43, R123). -/
def abandon (m : SlotId) (s : State) : WholeOutcome × State :=
  if (s.slot m).state.beforeEnd then
    let wasGranting := s.granting m
    let t := queueWalk true m (enterState m .abandoned .abandon (s.setSlot m { s.slot m with endMark := none }))
    (.taken, stopWords m (if wasGranting then departGranting m t else t))
  else (.refused .wrongState, s)

/-- ABANDON_MATCH (R40). -/
def execAbandonMatch (slot : Nat) (s : State) : Host.Outcome State Fault Refusal :=
  .next (wholeUnit (.abandonMatch slot) (onSlot slot abandon) s)

/-- CLEAR SLOT on a slot (R42). -/
def clearTheSlot (m : SlotId) (s : State) : WholeOutcome × State :=
  if (s.slot m).state = .closed then (.taken, queueWalk false m (enterState m .wiping .clear s))
  else (.refused .wrongState, s)

/-- CLEAR_SLOT (R42). -/
def execClearSlot (slot : Nat) (s : State) : Host.Outcome State Fault Refusal :=
  .next (wholeUnit (.clearSlot slot) (onSlot slot clearTheSlot) s)

/-! ## SET BLACKOUT (R44, R180) -/

/-- The bit of a region code in a blackout set. -/
def regionBit (g : BitVec 8) : BitVec 256 := 1 <<< g.toNat

/-- The set with the listed regions put in (R44). -/
def addRegions (set : BitVec 256) (l : List (BitVec 8)) : BitVec 256 := l.foldl (fun b g => b ||| regionBit g) set

/-- The set with the listed regions taken out (R44). -/
def removeRegions (set : BitVec 256) (l : List (BitVec 8)) : BitVec 256 := l.foldl (fun b g => b &&& ~~~ regionBit g) set

/-- How many region codes stand in the one set and not in the other. -/
def regionsChanged (a b : BitVec 256) : Nat := ((List.range 256).filter fun i => a.getLsbD i != b.getLsbD i).length

/-- The blackout set of slot m replaced in its live record. -/
def setBlackoutOf (m : SlotId) (rec : MatchRecord) (set : BitVec 256) (s : State) : State :=
  s.setSlot m { s.slot m with live := some { rec with blackout := set } }

/-- SET BLACKOUT on a slot in SCHEDULED to EXTENDED (R44). -/
def blackoutChange (op : Nat) (l : List (BitVec 8)) (m : SlotId) (rec : MatchRecord) (s : State) :
    WholeOutcome × State :=
  let set := if op = 0 then addRegions rec.blackout l else removeRegions rec.blackout l
  let n := regionsChanged rec.blackout set
  let t := setBlackoutOf m rec set s
  ({ WholeOutcome.taken with detail := .regions n }, if op = 0 ∧ 0 < n then revoke m t else t)

/-- SET BLACKOUT as the Match Table takes it (R44, R180). Where slot and operation are both bad the refusal names the slot
(notes/assumptions/50.md), and a bad operation is named before the slot's state is judged (notes/assumptions/39.md). -/
def setBlackout (slot op : Nat) (l : List (BitVec 8)) (s : State) : WholeOutcome × State :=
  onSlot slot
    (fun m t =>
      if 1 < op then (.badField .operation, t)
      else
        match t.live m with
        | some rec => if (t.slot m).state.beforeEnd then blackoutChange op l m rec t else (.refused .wrongState, t)
        | none => (.refused .wrongState, t))
    s

/-- SET_BLACKOUT (R44). -/
def execSetBlackout (slot op : Nat) (l : List (BitVec 8)) (s : State) : Host.Outcome State Fault Refusal :=
  .next (wholeUnit (.setBlackout slot op l) (setBlackout slot op l) s)

/-! ## FORCE ROLLOVER (R113) -/

/-- FORCE ROLLOVER on a slot: a notice with the issued flag taken as set (R113). -/
def force (m : SlotId) (s : State) : WholeOutcome × State :=
  match s.record m with
  | some r => if s.granting m then (.taken, s.setRecord m (r.notice true)) else (.refused .wrongState, s)
  | none => (.refused .wrongState, s)

/-- FORCE_ROLLOVER (R113). -/
def execForceRollover (slot : Nat) (s : State) : Host.Outcome State Fault Refusal :=
  .next (wholeUnit (.forceRollover slot) (onSlot slot force) s)

end Sys2Proof.Machine
end

