-- ==== Sys2Proof/Machine/PowerSteps.lean ====
section
/-! DEFINITION. RESTART, hold, resets and the supplies (R64 note, R74, R75, R155, R167, R168). -/

namespace Sys2Proof.Machine

/-- What RESTART leaves: no reservation, no command in execution, its progress record COMPLETE, and hold (R168). -/
def takeRestart (x : Executing) (s : State) : State :=
  let t := releaseReservation s
  enterHold true { t with cmu := { t.cmu with
    executing := none
    progress := { number := x.number, kind := x.kind, unitCount := 1, unitsApplied := 1, endMethod := .complete } } }

/-- RESTART (R168); as the unit that a part already in hold has in hand it leaves hold as it is (R167). -/
def execRestart (s : State) : Host.Outcome State Fault Refusal :=
  .next (match unitReady .restart s with
    | some x => if s.running then takeRestart x s else stopCommand x (releaseReservation s)
    | none => s)

/-- HOLD_ENTRY: PWARN is asserted; in a part already in hold that changes nothing (R167). -/
def execHoldEntry (s : State) : Host.Outcome State Fault Refusal :=
  .next (if s.running then enterHold false s else s)

/-- RETAINED_CHECK_CONFIRMED: steps 4 and 5 of hold; a packet in transmission is not completed (R144, R155, R167). -/
def execRetainedCheckConfirmed (pwarn : Bool) (s : State) : Host.Outcome State Fault Refusal :=
  .next (if s.power.phase = .holding ∨ s.power.phase = .finishing then
      { s with power := { s.power with phase := .held, pwarnAtStop := pwarn }, sst := { s.sst with selfRefresh := true }
               out := { s.out with sending := none } }
    else s)

/-- RESTART_SELF_RESET: the part's own reset after RESTART, unless PWARN was asserted at step 5 (R168). -/
def execRestartSelfReset (s : State) : Host.Outcome State Fault Refusal :=
  .next (if s.power.phase = .held && s.power.restartHold && !s.power.pwarnAtStop then start .command s else s)

/-- The retained check word is spoiled by a write cut short, or by lost contents. -/
def spoilCheck (spoiled : Bool) (s : State) : State :=
  { s with power := { s.power with checkHolds := s.power.checkHolds && !spoiled } }

/-- What an assertion of RESETN cuts short; hold, once settled, leaves nothing to cut (R64 note, R167). -/
def cutShort (cut : Cut) (s : State) : State :=
  match cut with
  | .nothing => s
  | .retainedWrite => if s.streaming then spoilCheck true s else s
  | .storeWrite => if s.taking then loseDram s else s

/-- RESETN: the retained check word is tested and the part starts WARM or COLD (R75, R168). -/
def execResetn (cut : Cut) (s : State) : Host.Outcome State Fault Refusal := .next (start .resetn (cutShort cut s))

/-- VBAK_LOSS: the monitor marks the loss; without the main supply the DRAM goes with it (R75; notes/assumptions/10.md). -/
def execVbakLoss (spoiled : Bool) (s : State) : Host.Outcome State Fault Refusal :=
  .next (
    let t := spoilCheck spoiled { s with power := { s.power with vbakLost := true } }
    if s.power.phase = .unpowered then loseDram t else t)

/-- MAIN_SUPPLY_LOSS: the part stops; the DRAM keeps its content only in self-refresh on VBAK (R64 note, R74). -/
def execMainSupplyLoss (spoiled : Bool) (s : State) : Host.Outcome State Fault Refusal :=
  .next (if s.power.phase = .unpowered then s
    else
      let t := spoilCheck (spoiled && s.streaming)
        { s with power := { s.power with phase := .unpowered }, out := { s.out with sending := none } }
      if s.sst.selfRefresh && !s.power.vbakLost then t else loseDram t)

end Sys2Proof.Machine
end

