-- ==== Sys2Proof/Machine/SeatItems.lean ====
section
/-! DEFINITION. The rows of the Purchase Engine: one seat item each (R76 to R90, R92 to R95). -/

namespace Sys2Proof.Machine

/-! ## Codes and reads (R77, R78) -/

/-- A code with a value. -/
def coded (c : ItemCode) (value : Nat) (s : State) : CodeValue × State := ({ code := c, value := value }, s)

/-- A code whose rule names no value. -/
def plain (c : ItemCode) (s : State) : CodeValue × State := coded c 0 s

/-- The member of its cohort that a seat is (spec 0.6.3). -/
def memberOf (seat : Nat) : Fin 32 := ⟨seat % 32, Nat.mod_lt _ (by decide)⟩

/-- Checks 2 and 3 of R77, made before any read. -/
def seatRefusal (seat : Nat) (s : State) : Option ItemCode :=
  if s.settings.activeCohorts * 32 ≤ seat then some .outOfRange
  else if s.sst.store = .clearing then some .storeNotReady
  else none

/-- An item that reads the row alone: checks 2 to 6 of R77, then its own. -/
def withRow (seat : Nat) (f : RowImage → State → CodeValue × State) (s : State) : CodeValue × State :=
  match seatRefusal seat s with
  | some c => plain c s
  | none =>
    let x := readRow (seat / 32) s
    if x.2.sst.store = .failed then plain .storeFailed x.2
    else match x.1 with
      | some r => f r x.2
      | none => plain .rowPoisoned x.2

/-- An item that reads the record alone: checks 2 to 6 of R77, then its own. -/
def withRecord (seat : Nat) (f : RecordImage → State → CodeValue × State) (s : State) : CodeValue × State :=
  match seatRefusal seat s with
  | some c => plain c s
  | none =>
    let x := readRecord seat s
    if x.2.sst.store = .failed then plain .storeFailed x.2
    else match x.1 with
      | some r => f r x.2
      | none => plain .rowPoisoned x.2

/-- An item that reads the row and then the record: checks 2 to 6 of R77, then its own. -/
def withBoth (seat : Nat) (f : RowImage → RecordImage → State → CodeValue × State) (s : State) : CodeValue × State :=
  match seatRefusal seat s with
  | some c => plain c s
  | none =>
    let x := readRow (seat / 32) s
    let y := readRecord seat x.2
    if y.2.sst.store = .failed then plain .storeFailed y.2
    else match x.1, y.1 with
      | some r, some q => f r q y.2
      | _, _ => plain .rowPoisoned y.2

/-- The row and the record of a seat are written together (R78). -/
def writeBoth (seat : Nat) (r : RowImage) (q : RecordImage) (s : State) : State :=
  writeRecord seat q (writeRow (seat / 32) r s)

/-! ## Pricing (R79 to R82) -/

/-- The elapsed time e: the signed distance from show_start to stream time, clamped to 0 and L (R80). -/
def lateElapsed (rec : MatchRecord) (now : StreamTime) : Nat :=
  min (signedDistance rec.showStart now).toNat (rec.scheduledLen * 90000)

/-- The late charge at elapsed time e (R80). -/
def lateCharge (rec : MatchRecord) (e : Nat) : Nat :=
  let L := rec.scheduledLen * 90000
  max ((rec.standardPrice * (L - e) + L - 1) / L) rec.lateFloor

/-- The charge of a NORMAL purchase, or the code that refuses it, in ON_SALE, PREVIEW or LIVE (R79, R81). -/
def normalCharge (st : SlotState) (rec : MatchRecord) (now : Option StreamTime) : Except ItemCode Nat :=
  match st, now with
  | .preview, _ => .ok rec.standardPrice
  | .onSale, some t => .ok (if reached rec.earlyClose t then rec.standardPrice else rec.earlyPrice)
  | .live, some t =>
    if rec.lateCutoff * 90000 < lateElapsed rec t then .error .saleClosed else .ok (lateCharge rec (lateElapsed rec t))
  | _, none => .error .noTime
  | _, some _ => .error .saleClosed

/-- The charge of a purchase in its mode; COMP charges nothing (R79, R82). -/
def chargeOf (comp : Bool) (m : SlotId) (rec : MatchRecord) (s : State) : Except ItemCode Nat :=
  if comp then .ok 0 else normalCharge (s.slot m).state rec s.now

/-! ## Purchase (R84) -/

/-- Check 1 of R84: the code of a slot state in which nothing is sold. -/
def purchaseRefusal : SlotState → Option ItemCode
  | .empty => some .slotNotActive
  | .wiping => some .slotNotActive
  | .scheduled => some .notOnSale
  | .extended => some .saleClosed
  | .ended => some .saleClosed
  | .closed => some .saleClosed
  | .abandoned => some .saleClosed
  | .onSale => none
  | .preview => none
  | .live => none

/-- A purchase at a charge: the credit check, the write of row and record, and the fresh notice (R84). -/
def buySeat (seat : Nat) (m : SlotId) (charge : Nat) (r : RowImage) (q : RecordImage) (s : State) : CodeValue × State :=
  if q.credit.toNat < charge then plain .noCredit s
  else
    coded .done charge
      (freshNotice (seat / 32) m
        (writeBoth seat (r.buy m (memberOf seat))
          ({ q with credit := q.credit - BitVec.ofNat 16 charge }.setPaid m charge) s))

/-- The checks of R84 after its reads, and the purchase. -/
def purchaseChecks (seat : Nat) (m : SlotId) (comp : Bool) (r : RowImage) (q : RecordImage) (s : State) :
    CodeValue × State :=
  match purchaseRefusal (s.slot m).state, s.live m with
  | some c, _ => plain c s
  | none, none => plain .slotNotActive s
  | none, some rec =>
    if r.holds m (memberOf seat) then plain .alreadyHeld s
    else if r.suspended (memberOf seat) then plain .suspended s
    else if inBlackout rec.blackout (r.region.get (memberOf seat)) then plain .blackedOut s
    else
      match chargeOf comp m rec s with
      | .error c => plain c s
      | .ok charge => buySeat seat m charge r q s

/-- A PURCHASE item (R77, R84). -/
def purchaseItem (seat slot mode : Nat) (s : State) : CodeValue × State :=
  match slotOf slot with
  | none => plain .badField s
  | some m => if 1 < mode then plain .badField s else withBoth seat (purchaseChecks seat m (decide (mode = 1))) s

/-- PURCHASE (R84). -/
def execPurchase (seat slot mode : Nat) (s : State) : Host.Outcome State Fault Refusal :=
  .next (itemUnit (.purchase seat slot mode) (purchaseItem seat slot mode) s)

/-! ## Refund and withdrawal (R89, R90) -/

/-- The slot has a match whose purchases can be refunded (R89). -/
def SlotState.refundable : SlotState → Bool
  | .onSale | .preview | .live | .extended | .ended | .closed | .abandoned => true
  | .empty | .scheduled | .wiping => false

/-- The slot has a match whose purchases can be withdrawn (R90). -/
def SlotState.withdrawable : SlotState → Bool
  | .scheduled | .onSale | .preview | .live | .extended | .ended | .closed | .abandoned => true
  | .empty | .wiping => false

/-- The checks of R89 after its reads, and the refund. -/
def refundChecks (seat : Nat) (m : SlotId) (r : RowImage) (q : RecordImage) (s : State) : CodeValue × State :=
  if !(s.slot m).state.refundable then plain .slotNotActive s
  else if !r.holds m (memberOf seat) then plain .notHeld s
  else
    let x := addCredit s.settings.creditCap q.credit.toNat (q.paidFor m)
    coded (if x.2 then .capped else .done) (x.1 - q.credit.toNat)
      (revoke m (writeBoth seat (r.unbuy m (memberOf seat)) (q.refunded s.settings.creditCap m) s))

/-- A REFUND item (R77, R89). -/
def refundItem (seat slot : Nat) (s : State) : CodeValue × State :=
  match slotOf slot with
  | none => plain .badField s
  | some m => withBoth seat (refundChecks seat m) s

/-- REFUND (R89). -/
def execRefund (seat slot : Nat) (s : State) : Host.Outcome State Fault Refusal :=
  .next (itemUnit (.refund seat slot) (refundItem seat slot) s)

/-- The checks of R90 after its reads, and the withdrawal. -/
def withdrawChecks (seat : Nat) (m : SlotId) (r : RowImage) (q : RecordImage) (s : State) : CodeValue × State :=
  if !(s.slot m).state.withdrawable then plain .slotNotActive s
  else if !r.holds m (memberOf seat) then plain .notHeld s
  else plain .done (revoke m (writeBoth seat (r.unbuy m (memberOf seat)) (q.setPaid m 0) s))

/-- A WITHDRAW item (R77, R90). -/
def withdrawItem (seat slot : Nat) (s : State) : CodeValue × State :=
  match slotOf slot with
  | none => plain .badField s
  | some m => withBoth seat (withdrawChecks seat m) s

/-- WITHDRAW (R90). -/
def execWithdraw (seat slot : Nat) (s : State) : Host.Outcome State Fault Refusal :=
  .next (itemUnit (.withdraw seat slot) (withdrawItem seat slot) s)

/-! ## Suspension and region (R93 to R95) -/

/-- The seat's purchase bit is set in a granting slot. -/
def holdsGranting (r : RowImage) (i : Fin 32) (s : State) (m : SlotId) : Bool := s.granting m && r.holds m i

/-- The check of R93 after its read, and the suspension. -/
def suspendChecks (seat : Nat) (r : RowImage) (s : State) : CodeValue × State :=
  if r.suspended (memberOf seat) then plain .already s
  else
    plain .done (revokeWhere (holdsGranting r (memberOf seat))
      (writeRow (seat / 32) (r.setSuspend (memberOf seat) true) s))

/-- SUSPEND (R93). -/
def execSuspend (seat : Nat) (s : State) : Host.Outcome State Fault Refusal :=
  .next (itemUnit (.suspend seat) (withRow seat (suspendChecks seat)) s)

/-- The check of R94 after its read, and the resumption. -/
def resumeChecks (seat : Nat) (r : RowImage) (s : State) : CodeValue × State :=
  if !r.suspended (memberOf seat) then plain .already s
  else
    plain .done (freshWhere (seat / 32) (holdsGranting r (memberOf seat))
      (writeRow (seat / 32) (r.setSuspend (memberOf seat) false) s))

/-- RESUME (R94). -/
def execResume (seat : Nat) (s : State) : Host.Outcome State Fault Refusal :=
  .next (itemUnit (.resume seat) (withRow seat (resumeChecks seat)) s)

/-- The notice of R95 for slot m, a seat moving from one region to another. -/
def regionNotice (seat : Nat) (r : RowImage) (g : BitVec 8) (m : SlotId) (s : State) : State :=
  match s.live m with
  | none => s
  | some rec =>
    if holdsGranting r (memberOf seat) s m && !r.suspended (memberOf seat) then
      match inBlackout rec.blackout (r.region.get (memberOf seat)), inBlackout rec.blackout g with
      | false, true => revoke m s
      | true, false => freshNotice (seat / 32) m s
      | false, false => s
      | true, true => s
    else s

/-- The check of R95 after its read, and the move. -/
def regionChecks (seat : Nat) (g : BitVec 8) (r : RowImage) (s : State) : CodeValue × State :=
  if r.region.get (memberOf seat) = g then plain .already s
  else
    plain .done (slotList.foldl (fun t m => regionNotice seat r g m t)
      (writeRow (seat / 32) (r.setRegion (memberOf seat) g) s))

/-- SET_REGION (R95). -/
def execSetRegion (seat : Nat) (g : BitVec 8) (s : State) : Host.Outcome State Fault Refusal :=
  .next (itemUnit (.setRegion seat g) (withRow seat (regionChecks seat g)) s)

/-! ## Credit (R85 to R88) -/

/-- The addition of R87 after its read; nothing is written where nothing changes. -/
def topUpChecks (seat amount : Nat) (q : RecordImage) (s : State) : CodeValue × State :=
  let x := addCredit s.settings.creditCap q.credit.toNat amount
  let q' := q.credited s.settings.creditCap amount
  coded (if x.2 then .capped else .done) (x.1 - q.credit.toNat) (if q' = q then s else writeRecord seat q' s)

/-- TOP_UP_CREDIT (R87). -/
def execTopUpCredit (seat amount : Nat) (s : State) : Host.Outcome State Fault Refusal :=
  .next (itemUnit (.topUpCredit seat amount) (withRecord seat (topUpChecks seat amount)) s)

/-- The check of R88 after its read, and the clearing of the sat mark. -/
def clearMarkChecks (seat : Nat) (q : RecordImage) (s : State) : CodeValue × State :=
  if q.satMark then plain .done (writeRecord seat { q with sat := q.sat &&& 0xFE } s) else plain .already s

/-- CLEAR_SEAT_MARKS (R88). -/
def execClearSeatMarks (seat : Nat) (s : State) : Host.Outcome State Fault Refusal :=
  .next (itemUnit (.clearSeatMarks seat) (withRecord seat (clearMarkChecks seat)) s)

end Sys2Proof.Machine
end

