-- ==== Sys2Proof/Machine/Timers.lean ====
section
/-! DEFINITION. The rows that time drives: stream-time advances, holdover, crypto period boundaries, sweep ages and the timers of
the Insertion Arbiter (R23, R26, R27, R37, R111, R114 to R117, R120, R125, R147, R148, R150). A row whose timer has not
reached its length changes nothing (notes/assumptions/1.md). -/

namespace Sys2Proof.Machine

/-- STREAM_TIME_ADVANCE: every running slot is evaluated at the present stream time (R18, R37). -/
def execStreamTimeAdvance (s : State) : Host.Outcome State Fault Refusal :=
  .next (if s.running && s.now.isSome then evaluateAll s else s)

/-- HOLDOVER_ENTERED: the holdover timer has reached its limit in TRACKING (R23, R24). -/
def execHoldoverEntered (s : State) : Host.Outcome State Fault Refusal :=
  .next (if s.running && decide (s.tbu.state = .tracking) && holdoverElapsed s then enterHoldover s else s)

/-- CANDIDATE_TIMEOUT: the holdover timer has reached its limit in HOLDOVER (R23). In hold it discards no candidate, which is the
model's choice (notes/assumptions/54.md). -/
def execCandidateTimeout (s : State) : Host.Outcome State Fault Refusal :=
  .next (if s.running && decide (s.tbu.state = .holdover) && holdoverElapsed s then dropCandidate s else s)

/-! ## Crypto period boundaries (R26, R111, R114 to R117) -/

/-- A new value from the random generator (R109). -/
def draw (s : State) : Drawn × State := ({ serial := s.draws }, { s with draws := s.draws + 1 })

/-- The match id a rollover report carries: the live record's (R126). -/
def State.matchId (s : State) (m : SlotId) : BitVec 32 := ((s.live m).map (·.matchId)).getD 0

/-- Whether a slot switches at a boundary: `some false` in SWITCHING (R115), `some true` when forced by the deadline (R116). -/
def EpochRecord.switchAt (r : EpochRecord) (deadline : Nat) : Option Bool :=
  match r.rollover with
  | .switching => some false
  | .sweeping => if deadline ≤ r.sweepAge then some true else none
  | .steady => none
  | .pending => none

/-- The record after a switch, a redo not yet begun (R115). -/
def EpochRecord.switched (r : EpochRecord) : EpochRecord :=
  { r with epoch := r.epoch + 1, currentKey := r.pendingKey.getD r.currentKey, pendingKey := none, issued := true,
           epochAge := 0, passesLeft := 0, sweepAge := 0, redo := false, rollover := .steady }

/-- The report of a switch (R115, R116, R126). -/
def switchReport (m : SlotId) (id : BitVec 32) (r : EpochRecord) (forced : Bool) : ReportBody :=
  if forced then .rolloverForced m id (r.epoch + 1) r.sweepAge r.passesLeft r.redo
  else .rolloverDone m id (r.epoch + 1) r.sweepAge r.redo

/-- Slot m switches to its new epoch and reports it (R115, R116). -/
def switchSlot (m : SlotId) (r : EpochRecord) (forced : Bool) (s : State) : State :=
  offer (switchReport m (s.matchId m) r forced) (s.setRecord m r.switched)

/-- The passes a rollover owes, from the sweep's position (R117). -/
def passesAtStart (s : State) : Nat :=
  if s.passStart then s.settings.rolloverPasses else s.settings.rolloverPasses + 1

/-- A record whose rollover starts with a new pending key (R117). -/
def EpochRecord.started (r : EpochRecord) (key : Drawn) (passes : Nat) : EpochRecord :=
  { r with pendingKey := some key, rollover := .sweeping, sweepAge := 0, cause := none, passesLeft := passes }

/-- Slot m's rollover starts at a boundary (R117). -/
def startRollover (m : SlotId) (cause : RolloverCause) (s : State) : State :=
  match s.record m with
  | none => s
  | some r =>
    let x := draw s
    offer (.rolloverStarted m (s.matchId m) r.epoch cause (passesAtStart s))
      (x.2.setEpochSlot m { record := some (r.started x.1 (passesAtStart s)), ageTicks := 0 })

/-- The lifetime of a STEADY slot's epoch has expired (R114). -/
def lifetimeExpired (r : EpochRecord) (t : Settings) : Bool :=
  decide (t.epochLifetime ≠ 0) && decide (t.epochLifetime * 60 ≤ r.epochAge * t.cryptoPeriod)

/-- Why a rollover starts for a slot that did not switch, its epoch age already counted (R114, R117). -/
def EpochRecord.startCause (r : EpochRecord) (t : Settings) : Option RolloverCause :=
  match r.rollover with
  | .pending => some .notice
  | .steady => if lifetimeExpired r t then some .lifetime else none
  | .sweeping => none
  | .switching => none

/-- The phase flips and the word of the phase just left is replaced (R111). -/
def EpochRecord.flipped (r : EpochRecord) (word : Drawn) : EpochRecord :=
  match r.phase with
  | .even => { r with phase := .odd, evenWord := word }
  | .odd => { r with phase := .even, oddWord := word }

/-- A slot in PREVIEW, LIVE, EXTENDED or ENDED changes words (R111). -/
def flipWords (m : SlotId) (s : State) : State :=
  if (s.slot m).state.words then
    match s.record m with
    | some r => (draw s).2.setRecord m (r.flipped (draw s).1)
    | none => s
  else s

/-- Slot m's work at a boundary: switch, epoch age, rollover start, words (section 7.4). -/
def boundarySlot (m : SlotId) (s : State) : State :=
  if s.granting m then
    match s.record m with
    | none => s
    | some r =>
      match r.switchAt s.settings.rolloverDeadline with
      | some forced =>
        let t := switchSlot m r forced s
        flipWords m (if r.redo then startRollover m .redo t else t)
      | none =>
        let aged := { r with epochAge := satInc r.epochAge }
        let t := s.setRecord m aged
        flipWords m (match aged.startCause s.settings with | some c => startRollover m c t | none => t)
  else s

/-- The next crypto period begins, of the length then in force (R26, R27). -/
def beginPeriod (s : State) : State :=
  { s with tbu := { s.tbu with periodTimer := 0, periodLength := s.settings.cryptoPeriod * 90000 } }

/-- CRYPTO_PERIOD_BOUNDARY: the period timer has reached the length of the period (R26). -/
def execCryptoPeriodBoundary (s : State) : Host.Outcome State Fault Refusal :=
  .next (if s.running && decide (s.tbu.periodLength ≤ s.tbu.periodTimer) then
      slotList.foldl (fun t m => boundarySlot m t) (beginPeriod s)
    else s)

/-! ## Sweep ages and the arbiter's timers -/

/-- SWEEP_AGE_INCREMENT: a further 90,000 local ticks of slot m's rollover have been counted (R120). -/
def execSweepAgeIncrement (m : SlotId) (s : State) : Host.Outcome State Fault Refusal :=
  .next (match s.record m with
    | some r =>
      if s.running && r.rollover.rolling && decide (90000 ≤ (s.epochSlot m).ageTicks) then
        s.setEpochSlot m { record := some { r with sweepAge := satInc r.sweepAge }, ageTicks := 0 }
      else s
    | none => s)

/-- WORD_MESSAGE_TIMER_EXPIRY: slot m's repeat timer expires and a Word Message is due (R125, R147). -/
def execWordMessageTimerExpiry (m : SlotId) (s : State) : Host.Outcome State Fault Refusal :=
  .next (match (s.wordTimer m).timer with
    | some n =>
      if s.running && decide (s.settings.wordInterval * 90 ≤ n) then
        s.setWordTimer m { due := (s.wordTimer m).due.or (some s.tbu.tick), timer := some 0 }
      else s
    | none => s)

/-- The status timer expires (R148). -/
def statusExpires (s : State) : State := { s with ina := { s.ina with statusDue := true, statusTimer := 0 } }

/-- STATUS_TIMER_EXPIRY: the status timer has reached Status Interval × 90 ticks (R148). -/
def execStatusTimerExpiry (s : State) : Host.Outcome State Fault Refusal :=
  .next (if s.running && decide (s.settings.statusInterval * 90 ≤ s.ina.statusTimer) then statusExpires s else s)

/-- The pace timer expires: one credit is added if fewer than 2 are held (R150). -/
def paceExpires (s : State) : State :=
  { s with ina := { s.ina with paceTimer := some 0, credits := if s.ina.credits < 2 then s.ina.credits + 1 else s.ina.credits } }

/-- PACE_TIMER_EXPIRY: the pace timer has reached Grant Pace × 9 ticks (R150). -/
def execPaceTimerExpiry (s : State) : Host.Outcome State Fault Refusal :=
  .next (match s.ina.paceTimer with
    | some n => if s.running && decide (s.settings.grantPace * 9 ≤ n) then paceExpires s else s
    | none => s)

end Sys2Proof.Machine
end

