-- ==== Sys2Proof/Machine/SettingsCommands.lean ====
section
/-! DEFINITION. The rows of SET PID CLASS, the settings, the root key, the Fault Record and the status marks (R6, R8, R11, R13,
R23, R125, R148, R151, R163 to R165, R174, R176). -/

namespace Sys2Proof.Machine

/-! ## SET PID CLASS (R6) -/

/-- An entry of the PID Map replaced. -/
def setPid (pid : Nat) (c : PidClass) (s : State) : State := { s with siu := s.siu.setClass pid c }

/-- A SET PID CLASS item (R6). -/
def pidItem (pid cls : Nat) (s : State) : CodeValue × State :=
  if 8191 < pid then ({ code := .badField, value := 0 }, s)
  else if 1 < cls then ({ code := .pidReserved, value := 0 }, s)
  else
    match s.siu.classOf pid with
    | .pass | .drop => ({ code := .done, value := 0 }, setPid pid (if cls = 0 then .pass else .drop) s)
    | .service _ | .control | .ownedReport | .ownedGrant | .ownedWord _ | .null =>
      ({ code := .pidReserved, value := 0 }, s)

/-- SET_PID_CLASS: one item (R6). -/
def execSetPidClass (pid cls : Nat) (s : State) : Host.Outcome State Fault Refusal :=
  .next (itemUnit (.setPidClass pid cls) (pidItem pid cls) s)

/-! ## SET SETTINGS (R163) -/

/-- A value brought to the nearest value of a range. -/
def clampTo (lo hi v : Nat) : Nat := max lo (min v hi)

/-- A value brought into a range that also holds 0. -/
def clampOrOff (lo hi v : Nat) : Nat := if v = 0 then 0 else clampTo lo hi v

/-- Clamping by a setting's position in the table of section 10.6 (R163 stage 2). -/
def clampSetting (pos v : Nat) : Nat :=
  match pos with
  | 1 => clampTo 2 60 v
  | 2 => clampTo 20 500 v
  | 3 => clampOrOff 1 10000 v
  | 4 => clampTo 1 8 v
  | 5 => clampTo 1 3 v
  | 6 => clampTo 1 4 v
  | 7 => clampOrOff 10 1800 v
  | 8 => clampTo 30 3600 v
  | 9 => clampOrOff 5 240 v
  | 10 => clampTo 1 65535 v
  | 11 => clampTo 100 2000 v
  | 12 => clampTo 500 10000 v
  | 14 => clampTo 1000 200000 v
  | 15 => clampTo 1 32768 v
  | 16 => clampTo 0x20 0x1FFE v
  | 17 => clampTo 0x20 0x1FFE v
  | 18 => clampTo 0x20 0x1FFE v
  | 19 => clampTo 0 0x1FFE v
  | _ => v

/-- The Input Fill value of a code (spec 12.3). -/
def fillModeOf (v : Nat) : FillMode := if v = 0 then .null else .flood

/-- The settings with the one at a position replaced. -/
def putSetting (t : Settings) (pos v : Nat) : Settings :=
  match pos with
  | 1 => { t with cryptoPeriod := v }
  | 2 => { t with wordInterval := v }
  | 3 => { t with grantPace := v }
  | 4 => { t with freshRunLimit := v }
  | 5 => { t with freshRepeats := v }
  | 6 => { t with rolloverPasses := v }
  | 7 => { t with rushThreshold := v }
  | 8 => { t with rolloverDeadline := v }
  | 9 => { t with epochLifetime := v }
  | 10 => { t with creditCap := v }
  | 11 => { t with holdoverLimit := v }
  | 12 => { t with statusInterval := v }
  | 13 => { t with inputFill := fillModeOf v }
  | 14 => { t with fillRate := v }
  | 15 => { t with activeCohorts := v }
  | 16 => { t with controlPid := v }
  | 17 => { t with reportPid := v }
  | 18 => { t with grantPid := v }
  | 19 => { t with clockPid := v }
  | _ => t

/-- A pair fails the validation of R163 stage 1 (R180). -/
def badPair (p : Nat × Nat) : Bool :=
  decide (p.1 = 0) || decide (19 < p.1) || (decide (p.1 = 13) && decide (1 < p.2))

/-- The code of a pair that passed validation (R163 stage 2). -/
def pairCode (p : Nat × Nat) : CodeValue :=
  { code := if clampSetting p.1 p.2 = p.2 then .done else .clamped, value := 0 }

/-- The settings the command would leave in force, the later pair of one setting deciding (R163). -/
def settingsAfter (t : Settings) (pairs : List (Nat × Nat)) : Settings :=
  pairs.foldl (fun u p => putSetting u p.1 (clampSetting p.1 p.2)) t

/-- The identifiers of the Control, Report and Grant PID settings. -/
def Settings.marks (t : Settings) : List Nat := [t.controlPid, t.reportPid, t.grantPid]

/-- The identifier check of R8. -/
def marksAccepted (u : Siu) (old new : Settings) : Bool :=
  decide new.marks.Nodup &&
  new.marks.all fun p => decide (p ∈ old.marks) || decide (u.classOf p = .pass) || decide (u.classOf p = .drop)

/-- An identifier takes a class and its counter is 0 or discarded (R8, R13). -/
def Siu.mark (u : Siu) (pid : Nat) (c : PidClass) : Siu := (u.setClass pid c).zeroCounter pid

/-- The marks move together: what loses its mark and gains none is PASS, what gains one takes it (R8). -/
def moveMarks (old new : Settings) (u : Siu) : Siu :=
  let u := (old.marks.filter fun p => !new.marks.contains p).foldl (fun v p => v.mark p .pass) u
  let u := if new.controlPid = old.controlPid then u else u.mark new.controlPid .control
  let u := if new.reportPid = old.reportPid then u else u.mark new.reportPid .ownedReport
  if new.grantPid = old.grantPid then u else u.mark new.grantPid .ownedGrant

/-- A change of Fill Rate while fill runs: the new interval counts from the last slot created (R11). Where more than one new
interval has passed since then, the slots missed are owed and come one a REFCLK period (notes/assumptions/40.md). -/
def fillRateMoved (old : Settings) (s : State) : State :=
  if s.settings.fillRate ≠ old.fillRate ∧ s.filling then
    { s with siu := { s.siu with fill := { s.siu.fill with elapsed := s.siu.fill.sinceLast, created := 0 } } }
  else s

/-- A change of Holdover Limit takes effect at once (R23). -/
def holdoverLimitMoved (old : Settings) (s : State) : State :=
  if s.settings.holdoverLimit ≠ old.holdoverLimit then holdoverLimitReached s else s

/-- A change of Status Interval that is already reached makes the expiry fall now (R148). -/
def statusIntervalMoved (old : Settings) (s : State) : State :=
  if s.settings.statusInterval ≠ old.statusInterval ∧ s.settings.statusInterval * 90 ≤ s.ina.statusTimer then statusExpires s
  else s

/-- A change of Grant Pace (R151). -/
def grantPaceMoved (old : Settings) (s : State) : State :=
  if s.settings.grantPace = old.grantPace then s
  else if s.settings.grantPace = 0 then { s with ina := { s.ina with paceTimer := none } }
  else
    match s.ina.paceTimer with
    | none => { s with ina := { s.ina with paceTimer := some 0 } }
    | some n => if s.settings.grantPace * 9 ≤ n then paceExpires s else s

/-- Slot m's repeat timer under a shorter Word Message Interval that it has already reached (notes/assumptions/26.md). -/
def wordTimerMoved (m : SlotId) (s : State) : State :=
  match (s.wordTimer m).timer with
  | some n =>
    if s.settings.wordInterval * 90 ≤ n then
      s.setWordTimer m { due := (s.wordTimer m).due.or (some s.tbu.tick), timer := some 0 }
    else s
  | none => s

/-- A change of Word Message Interval (R125). -/
def wordIntervalMoved (old : Settings) (s : State) : State :=
  if s.settings.wordInterval ≠ old.wordInterval then slotList.foldl (fun t m => wordTimerMoved m t) s else s

/-- New settings in force, each owning block acting as its own rule gives (R163); the timers that hold has stopped stay (R28,
R155; notes/assumptions/54.md, 55.md). -/
def applySettings (new : Settings) (s : State) : State :=
  let old := s.settings
  let t := fillRateMoved old { s with settings := new, siu := moveMarks old new s.siu }
  if s.running then wordIntervalMoved old (grantPaceMoved old (statusIntervalMoved old (holdoverLimitMoved old t))) else t

/-- SET SETTINGS as the Command Unit takes it: validation, clamping, identifier check (R163). A refusal names the first pair that
fails (notes/assumptions/47.md). -/
def changeSettings (pairs : List (Nat × Nat)) (s : State) : WholeOutcome × State :=
  match pairs.findIdx? badPair with
  | some i => (.badField (.pair i), s)
  | none =>
    let new := settingsAfter s.settings pairs
    if marksAccepted s.siu s.settings new then
      ({ WholeOutcome.taken with codes := pairs.map pairCode }, applySettings new s)
    else (.refused .pidConflict, s)

/-- SET_SETTINGS (R163). -/
def execSetSettings (pairs : List (Nat × Nat)) (s : State) : Host.Outcome State Fault Refusal :=
  .next (wholeUnit (.setSettings pairs) (changeSettings pairs) s)

/-! ## READ SETTINGS and the root key (R164, R165) -/

/-- The settings in the order of the table of section 10.6. -/
def Settings.values (t : Settings) : List Nat :=
  [t.cryptoPeriod, t.wordInterval, t.grantPace, t.freshRunLimit, t.freshRepeats, t.rolloverPasses, t.rushThreshold,
   t.rolloverDeadline, t.epochLifetime, t.creditCap, t.holdoverLimit, t.statusInterval, t.inputFill.code, t.fillRate,
   t.activeCohorts, t.controlPid, t.reportPid, t.grantPid, t.clockPid]

/-- The READ SETTINGS readback (R164; widths: notes/assumptions/15.md; LOADED is the flag 1, NOT LOADED 0:
notes/assumptions/46.md). -/
def settingsData (s : State) : List (BitVec 8) :=
  s.settings.values.flatMap (fun v => beBytes 4 v) ++ [flagByte (decide (s.cmu.rootKey ≠ 0))] ++
  beBytes 4 s.cmu.lastAccepted.toNat

/-- READ_SETTINGS (R164). -/
def execReadSettings (s : State) : Host.Outcome State Fault Refusal :=
  .next (wholeUnit .readSettings (fun t => ({ WholeOutcome.taken with readback := some (settingsData t) }, t)) s)

/-- SET ROOT KEY as the Command Unit takes it (R165). -/
def changeRootKey (wrapped : BitVec 256) (s : State) : WholeOutcome × State :=
  let x := Config.unwrapKey s.cmu.unitKey wrapped
  if x.2 && decide (x.1 ≠ 0) then (.taken, { s with cmu := { s.cmu with rootKey := x.1 } }) else (.refused .badKey, s)

/-- SET_ROOT_KEY (R165). -/
def execSetRootKey (wrapped : BitVec 256) (s : State) : Host.Outcome State Fault Refusal :=
  .next (wholeUnit (.setRootKey wrapped) (changeRootKey wrapped) s)

/-! ## RELEASE FAULT and CLEAR STATUS MARKS (R174, R176) -/

/-- The Fault Record cleared (R176). -/
def releaseRecord (s : State) : State := { s with rpu := { s.rpu with fault := FaultRecord.clear } }

/-- RELEASE_FAULT (R176). -/
def execReleaseFault (s : State) : Host.Outcome State Fault Refusal :=
  .next (wholeUnit .releaseFault (fun t => (.taken, releaseRecord t)) s)

/-- The seven counters set to 0 and both marks cleared (R4, R24, R174). -/
def clearMarks (s : State) : State :=
  { s with rpu := { s.rpu with counters := Counters.zero }, tbu := { s.tbu with holdoverSeen := false }
           siu := { s.siu with inputLostSeen := false } }

/-- CLEAR_STATUS_MARKS (R174). -/
def execClearStatusMarks (s : State) : Host.Outcome State Fault Refusal :=
  .next (wholeUnit .clearStatusMarks (fun t => (.taken, clearMarks t)) s)

end Sys2Proof.Machine
end

