-- ==== Sys2Proof/Machine/StoreCommands.lean ====
section
/-! DEFINITION. The rows of the Seat Store's commands: loads, the query, the lists and CLEAR STORE (R54 to R59, R70 to R73). -/

namespace Sys2Proof.Machine

/-! ## Loads (R54, R71, R72) -/

/-- The checks of a load item, made in this order (R71, R72). -/
def loadRefusal (inRange : Bool) (s : State) : Option ItemCode :=
  if !inRange then some .outOfRange
  else
    match s.sst.store with
    | .clearing => some .storeNotReady
    | .failed => some .storeFailed
    | .verifying => none
    | .ready => none

/-- The notices of a row load for slot m: fresh where the new base mask is nonzero, revocation where the old row was poisoned
or a member of its base mask is gone (R71). -/
def loadNotices (c : Nat) (old : Option RowImage) (new : RowImage) (m : SlotId) (s : State) : State :=
  match s.live m with
  | none => s
  | some rec =>
    if s.granting m then
      let after := rowMask new m rec.blackout
      let t := if after = 0 then s else freshNotice c m s
      match old with
      | none => revoke m t
      | some o => if rowMask o m rec.blackout &&& ~~~ after = 0 then t else revoke m t
    else s

/-- A row load that passed its checks: its code, and the state after the write, the cure and the notices (R71). -/
def loadRow (c : Nat) (row : RowImage) (s : State) : ItemCode × State :=
  let old := oldRow c s
  (if old.isSome then .done else .cured,
   slotList.foldl (fun t m => loadNotices c old row m t) (curePoison .row c (writeRow c row s)))

/-- LOAD COHORT ROW as its owning block takes it (R71). -/
def loadCohortRow (cohort : Nat) (row : RowImage) (s : State) : WholeOutcome × State :=
  match loadRefusal (decide (cohort ≤ 32767)) s with
  | some c => (.coded c, s)
  | none => (.coded (loadRow cohort row s).1, (loadRow cohort row s).2)

/-- LOAD_COHORT_ROW (R71). -/
def execLoadCohortRow (cohort : Nat) (row : RowImage) (s : State) : Host.Outcome State Fault Refusal :=
  .next (wholeUnit (.loadCohortRow cohort row) (loadCohortRow cohort row) s)

/-- A LOAD SEAT RECORDS item (R72, R180). -/
def loadRecordItem (seat : Nat) (rec : RecordImage) (s : State) : CodeValue × State :=
  match loadRefusal (decide (seat ≤ 1048575)) s with
  | some c => ({ code := c, value := 0 }, s)
  | none =>
    ({ code := if (oldRecord seat s).isSome then .done else .cured, value := 0 },
     curePoison .seat seat (writeRecord seat rec.asStored s))

/-- LOAD_SEAT_RECORDS: one item (R72). -/
def execLoadSeatRecords (seat : Nat) (rec : RecordImage) (s : State) : Host.Outcome State Fault Refusal :=
  .next (itemUnit (.loadSeatRecords seat rec) (loadRecordItem seat rec) s)

/-! ## The query (R73) -/

/-- The row's part of a QUERY SEAT readback: its status, and what a readable row holds of member i (R73). Of a poisoned row
the 18 bytes behind the status are not filled and carry 0 (R181). -/
def queryRowBytes (i : Fin 32) : Option RowImage → List (BitVec 8)
  | some r => [0, r.region.get i] ++ slotList.map (fun m => flagByte (r.holds m i)) ++ [flagByte (r.suspended i)]
  | none => 1 :: List.replicate 18 0

/-- The record's part of a QUERY SEAT readback (R73); of a poisoned record the 35 bytes behind the status carry 0 (R181). -/
def queryRecordBytes : Option RecordImage → List (BitVec 8)
  | some q =>
    [0] ++ beBytes 2 q.credit.toNat ++ q.paid.toList.flatMap (fun v => beBytes 2 v.toNat) ++ [flagByte q.satMark]
  | none => 1 :: List.replicate 35 0

/-- QUERY SEAT as the Seat Store takes it (R73; widths: notes/assumptions/15.md). The store state shown is the one after the reads
(notes/assumptions/42.md); where the row's read has ended the verify LOST, the record is not read and shown POISONED
(notes/assumptions/43.md). -/
def querySeat (seat : Nat) (s : State) : WholeOutcome × State :=
  if 1048575 < seat then (.coded .outOfRange, s)
  else if s.sst.store = .clearing then (.coded .storeNotReady, s)
  else
    let x := readRow (seat / 32) s
    let y := readRecord seat x.2
    let data := beBytes 3 seat ++ beBytes 1 y.2.sst.store.code ++ [flagByte (decide (seat ∈ y.2.sst.house))] ++
      queryRowBytes ⟨seat % 32, Nat.mod_lt _ (by decide)⟩ x.1 ++ queryRecordBytes y.1
    ({ WholeOutcome.coded (if x.1.isSome && y.1.isSome then .done else .rowPoisoned) with readback := some data }, y.2)

/-- QUERY_SEAT (R73). -/
def execQuerySeat (seat : Nat) (s : State) : Host.Outcome State Fault Refusal :=
  .next (wholeUnit (.querySeat seat) (querySeat seat) s)

/-! ## Lists and CLEAR STORE (R55, R57 to R59, R70) -/

/-- The READ POISON LIST readback (R55, spec 12.6). -/
def poisonData (s : State) : List (BitVec 8) :=
  beBytes 1 s.sst.store.code ++ beBytes 4 s.sst.signature.toNat ++ beBytes 1 s.sst.poison.length ++
  s.sst.poison.flatMap (fun e => beBytes 1 e.kind.code ++ beBytes 3 e.index) ++ s.rpu.fault.bytes

/-- READ_POISON_LIST (R55). -/
def execReadPoisonList (s : State) : Host.Outcome State Fault Refusal :=
  .next (wholeUnit .readPoisonList (fun t => ({ WholeOutcome.taken with readback := some (poisonData t) }, t)) s)

/-- CLEAR_STORE (R70). -/
def execClearStore (s : State) : Host.Outcome State Fault Refusal :=
  .next (wholeUnit .clearStore (fun t => (.taken, cutAndClear t)) s)

/-- The House Seat List replaced. -/
def setHouse (l : List Nat) (s : State) : State := { s with sst := { s.sst with house := l } }

/-- ADD HOUSE SEAT as the Seat Store takes it (R57). -/
def addHouse (seat : Nat) (s : State) : WholeOutcome × State :=
  if 1048575 < seat then (.coded .outOfRange, s)
  else if seat ∈ s.sst.house then (.coded .duplicate, s)
  else if 64 ≤ s.sst.house.length then (.coded .listFull, s)
  else (.coded .done, freshWhere (seat / 32) State.granting (setHouse (s.sst.house ++ [seat]) s))

/-- ADD_HOUSE_SEAT (R57). -/
def execAddHouseSeat (seat : Nat) (s : State) : Host.Outcome State Fault Refusal :=
  .next (wholeUnit (.addHouseSeat seat) (addHouse seat) s)

/-- REMOVE HOUSE SEAT as the Seat Store takes it (R58). -/
def removeHouse (seat : Nat) (s : State) : WholeOutcome × State :=
  if 1048575 < seat then (.coded .outOfRange, s)
  else if seat ∈ s.sst.house then (.coded .done, revokeWhere State.granting (setHouse (s.sst.house.erase seat) s))
  else (.coded .notHeld, s)

/-- REMOVE_HOUSE_SEAT (R58). -/
def execRemoveHouseSeat (seat : Nat) (s : State) : Host.Outcome State Fault Refusal :=
  .next (wholeUnit (.removeHouseSeat seat) (removeHouse seat) s)

/-- The READ HOUSE LIST readback (R59). -/
def houseData (s : State) : List (BitVec 8) :=
  beBytes 1 s.sst.house.length ++ s.sst.house.flatMap (fun n => beBytes 3 n)

/-- READ_HOUSE_LIST (R59). -/
def execReadHouseList (s : State) : Host.Outcome State Fault Refusal :=
  .next (wholeUnit .readHouseList (fun t => ({ WholeOutcome.taken with readback := some (houseData t) }, t)) s)

end Sys2Proof.Machine
end

