-- ==== Sys2Proof/Machine/StreamPath.lean ====
section
/-! DEFINITION. The rows of the Stream Path: sync lock, packets, the Scrambler, command intake, Input Fill (R1 to R16, R156 to
R158, R179). -/

namespace Sys2Proof.Machine

/-! ## Fields of a transport packet (spec 12.1, R179) -/

/-- Identifier. -/
def pidOf (p : List (BitVec 8)) : Nat := (byteAt p 1).toNat % 32 * 256 + (byteAt p 2).toNat

/-- Transport error bit. -/
def errorBit (p : List (BitVec 8)) : Bool := (byteAt p 1).getLsbD 7

/-- Payload-start bit. -/
def payloadStartBit (p : List (BitVec 8)) : Bool := (byteAt p 1).getLsbD 6

/-- Scrambling field. -/
def scramblingField (p : List (BitVec 8)) : Nat := (byteAt p 3).toNat / 64

/-- Adaptation field control. -/
def adaptationControl (p : List (BitVec 8)) : Nat := (byteAt p 3).toNat / 16 % 4

/-- Length of the adaptation field, absent where none is announced or it would run past the end (R179). -/
def adaptationLength (p : List (BitVec 8)) : Option Nat :=
  if adaptationControl p = 2 ∨ adaptationControl p = 3 then
    (if (byteAt p 4).toNat ≤ 183 then some (byteAt p 4).toNat else none)
  else none

/-- Offset of the first payload byte, absent where the packet carries no payload (R179). -/
def payloadOffset (p : List (BitVec 8)) : Option Nat :=
  if adaptationControl p = 1 then some 4
  else if adaptationControl p = 3 ∧ (byteAt p 4).toNat < 183 then some (5 + (byteAt p 4).toNat)
  else none

/-- The clock reference's 33-bit base, where the adaptation field carries one that fits (spec 12.1, R179). -/
def clockBase (p : List (BitVec 8)) : Option StreamTime :=
  match adaptationLength p with
  | some n => if 7 ≤ n ∧ (byteAt p 5).getLsbD 4 then some (BitVec.ofNat 33 (numAt p 6 6 / 32768)) else none
  | none => none

/-! ## The Scrambler (R14) -/

/-- The scramble transform: as many bytes as it is given (spec 1.6). -/
def scramble (w : Drawn) (payload : List (BitVec 8)) : List (BitVec 8) :=
  (List.range payload.length).map fun i => Config.scrambleByte w.bits payload i

/-- The control word of the phase in use. -/
def EpochRecord.currentWord (r : EpochRecord) : Drawn :=
  match r.phase with
  | .even => r.evenWord
  | .odd => r.oddWord

/-- The scrambling field for a phase: 2 even, 3 odd (R14). -/
def Phase.scrambling : Phase → BitVec 8
  | .even => 2
  | .odd => 3

/-- A packet with its payload scrambled and its scrambling field set; all else as it arrived (R14). -/
def scrambledPacket (r : EpochRecord) (off : Nat) (p : List (BitVec 8)) : List (BitVec 8) :=
  (p.take off).set 3 ((byteAt p 3 &&& 0x3F) ||| (r.phase.scrambling <<< 6)) ++ scramble r.currentWord (p.drop off)

/-- What the Scrambler forwards for a packet of slot m (R14). -/
def scramblerOutput (s : State) (m : SlotId) (p : List (BitVec 8)) : List (BitVec 8) :=
  match payloadOffset p, s.record m with
  | some off, some r => if (s.slot m).state.onAir then scrambledPacket r off p else p
  | _, _ => p

/-! ## Command intake (R156 to R158) -/

/-- A check failure is counted (R156). -/
def countCheckFailure (s : State) : State :=
  { s with rpu := { s.rpu with counters :=
      { s.rpu.counters with checkFailures := satInc s.rpu.counters.checkFailures } } }

/-- A command body that passed its check word is judged by its number and by the room in the queue (R157, R158). -/
def acceptBody (body : List (BitVec 8)) (s : State) : State :=
  let number := BitVec.ofNat 32 (numAt body 2 4)
  if number ≤ s.cmu.lastAccepted then
    offer (.result number (byteAt body 6) .stale .none .none [])
      { s with rpu := { s.rpu with counters :=
          { s.rpu.counters with staleCommands := satInc s.rpu.counters.staleCommands } } }
  else if s.cmu.queue.length < 8 then
    { s with cmu := { s.cmu with
        queue := s.cmu.queue ++ [{ number := number, body := body }], lastAccepted := number } }
  else
    { s with rpu := { s.rpu with counters :=
        { s.rpu.counters with discardedCommands := satInc s.rpu.counters.discardedCommands } } }

/-- The check word of a body of this length is right under the unit key (R156). -/
def checkWordHolds (key : BitVec 128) (body : List (BitVec 8)) : Bool :=
  decide (Config.checkWord key (body.take (body.length - 8)) = BitVec.ofNat 64 (numAt body (body.length - 8) 8))

/-- The payload of a packet, empty where it carries none. -/
def payloadOf (p : List (BitVec 8)) : List (BitVec 8) :=
  match payloadOffset p with
  | some off => p.drop off
  | none => []

/-- The Command Unit takes an error-free CONTROL packet; in hold it examines none (R156, R158). -/
def intake (p : List (BitVec 8)) (s : State) : State :=
  let payload := payloadOf p
  let len := numAt payload 0 2
  if !s.running then s
  else if !payloadStartBit p then s
  else if payload.length < 2 then countCheckFailure s
  else if len < 21 ∨ payload.length < len then countCheckFailure s
  else if checkWordHolds s.cmu.unitKey (payload.take len) then acceptBody (payload.take len) s
  else countCheckFailure s

/-! ## Packets (R2, R9, R10) -/

/-- The transport-error counter increments (R10). -/
def countError (s : State) : State :=
  { s with rpu := { s.rpu with counters :=
      { s.rpu.counters with transportErrors := satInc s.rpu.counters.transportErrors } } }

/-- The owned-collision counter increments (R9). -/
def countCollision (s : State) : State :=
  { s with rpu := { s.rpu with counters :=
      { s.rpu.counters with ownedCollisions := satInc s.rpu.counters.ownedCollisions } } }

/-- The pre-scrambled counter increments (R10). -/
def countPreScrambled (s : State) : State :=
  { s with rpu := { s.rpu with counters := { s.rpu.counters with preScrambled := satInc s.rpu.counters.preScrambled } } }

/-- The fate of a packet with its transport error bit set (R10 step 1). -/
def erroredPosition (c : PidClass) (p : List (BitVec 8)) : OutPosition :=
  match c with
  | .pass => .packet p
  | .service _ => .packet p
  | .null => .packet p
  | .drop => .free .removed
  | .control => .free .removed
  | .ownedReport => .free .removed
  | .ownedGrant => .free .removed
  | .ownedWord _ => .free .removed

/-- The fate of an error-free packet by its class (R9, R10 step 3). `fwd` is what the Scrambler forwards. -/
def classFate (c : PidClass) (p : List (BitVec 8)) (fwd : SlotId → List (BitVec 8)) (s : State) : State :=
  match c with
  | .pass => appendOut (.packet p) s
  | .service m =>
    if scramblingField p ≠ 0 then appendOut (.packet p) (countPreScrambled s) else appendOut (.packet (fwd m)) s
  | .drop => appendOut (.free .removed) s
  | .control => appendOut (.free .removed) (intake p s)
  | .ownedReport => appendOut (.free .removed) (countCollision s)
  | .ownedGrant => appendOut (.free .removed) (countCollision s)
  | .ownedWord _ => appendOut (.free .removed) (countCollision s)
  | .null => appendOut (.free (.inputNull p)) s

/-- A clock reference on the Clock PID goes to the Timebase; in hold none is taken (R10 step 2, R28). -/
def offerReference (p : List (BitVec 8)) (s : State) : State :=
  match clockBase p with
  | some ref => if s.running && decide (pidOf p = s.settings.clockPid) then takeReference ref s else s
  | none => s

/-- An error-free packet after its reference has been handed on: its class, and its slot as the Scrambler reads it, stand as
they are then (R9, R10, R15; notes/assumptions/24.md). -/
def decideFate (p : List (BitVec 8)) (s : State) : State :=
  classFate (s.siu.classOf (pidOf p)) p (fun m => scramblerOutput s m p) s

/-- A packet whose sync byte is good (R9, R10). -/
def handlePacket (p : List (BitVec 8)) (s : State) : State :=
  if errorBit p then appendOut (erroredPosition (s.siu.classOf (pidOf p)) p) (countError s)
  else decideFate p (offerReference p s)

/-- An input loss: HUNT, the loss flag and the mark set, INPUT LOST queued, fill begun (R3, R4, R11). -/
def inputLoss (cause : LossCause) (s : State) : State :=
  offer (.inputLost cause)
    { s with siu := { s.siu with
        lock := .hunt, syncCount := 0, badSyncs := 0, toNextStart := 0, lossFlag := true, inputLostSeen := true
        fill := { elapsed := 0, created := 0, sinceLast := 0 } } }

/-- A byte has been received: the silence is over. -/
def heard (s : State) : State := { s with siu := { s.siu with silentTicks := 0 } }

/-- A position is not a fill slot. -/
def OutPosition.notFill : OutPosition → Bool
  | .free .fill => false
  | .free .removed => true
  | .free .badSync => true
  | .free (.inputNull _) => true
  | .packet _ => true

/-- CHECK reaches LOCKED: fill ends, fill slots not begun are withdrawn, and a loss is regained (R1, R3, R11). -/
def gainLock (s : State) : State :=
  let t := drain { s with
    siu := { s.siu with lock := .locked, syncCount := 3, badSyncs := 0, toNextStart := 0, lossFlag := false }
    out := { s.out with positions := s.out.positions.filter OutPosition.notFill } }
  if s.siu.lossFlag then offer .inputRegained t else t

/-- The lock state returns to HUNT from CHECK, with no report (R1, R3). -/
def backToHunt (s : State) : State :=
  { s with siu := { s.siu with lock := .hunt, syncCount := 0, toNextStart := 0 } }

/-- The next packet start is expected 188 bytes on, with this sync count (R1). -/
def expectStart (count : Nat) (s : State) : State :=
  { s with siu := { s.siu with lock := .check, syncCount := count, toNextStart := 188 } }

/-- A byte at an expected packet start in CHECK (R1). -/
def checkStart (b : BitVec 8) (s : State) : State :=
  if b = 0x47 then (if 2 ≤ s.siu.syncCount then gainLock s else expectStart (s.siu.syncCount + 1) s)
  else backToHunt s

/-- A received byte in HUNT or CHECK (R1). -/
def lockByte (b : BitVec 8) (s : State) : State :=
  match s.siu.lock with
  | .hunt => if b = 0x47 then expectStart 1 s else s
  | .check =>
    if s.siu.toNextStart ≤ 1 then checkStart b s
    else { s with siu := { s.siu with toNextStart := s.siu.toNextStart - 1 } }
  | .locked => s

/-- SYNC_CANDIDATE: a byte received in HUNT or CHECK (R1); in LOCKED a byte ends the silence that R2 measures and is otherwise
seen with its packet (notes/assumptions/5.md). -/
def execSyncCandidate (b : BitVec 8) (s : State) : Host.Outcome State Fault Refusal :=
  .next (if s.streaming then lockByte b (heard s) else s)

/-- CHECK_SILENCE_TIMEOUT: 900 local ticks without a byte in CHECK (R1). -/
def execCheckSilenceTimeout (s : State) : Host.Outcome State Fault Refusal :=
  .next (if s.streaming ∧ s.siu.lock = .check ∧ 900 ≤ s.siu.silentTicks then backToHunt s else s)

/-- LOCKED_SILENCE_TIMEOUT: 900 local ticks without a byte in LOCKED (R2, R3). -/
def execLockedSilenceTimeout (s : State) : Host.Outcome State Fault Refusal :=
  .next (if s.streaming ∧ s.siu.lock = .locked ∧ 900 ≤ s.siu.silentTicks then inputLoss .silence s else s)

/-- A packet start that is not 0x47: tolerated once, an input loss the second time (R2). -/
def badSync (s : State) : State :=
  if s.siu.badSyncs = 0 then appendOut (.free .badSync) { s with siu := { s.siu with badSyncs := 1 } }
  else inputLoss .badSync s

/-- PACKET_TAKEN: a packet of 188 bytes in LOCKED (R2, R9, R10). -/
def execPacketTaken (p : List (BitVec 8)) (s : State) : Host.Outcome State Fault Refusal :=
  .next (if s.streaming ∧ s.siu.lock = .locked ∧ p.length = 188 then
      (if byteAt p 0 = 0x47 then handlePacket p (heard { s with siu := { s.siu with badSyncs := 0 } })
       else badSync (heard s))
    else s)

/-- The next fill slot is due: n × 27,000,000 ÷ Fill Rate periods have elapsed (R11). -/
def fillDue (s : State) : Bool :=
  s.filling && decide ((s.siu.fill.created + 1) * 27000000 ≤ s.siu.fill.elapsed * s.settings.fillRate)

/-- FILL_SLOT: a fill slot is created (R11). -/
def execFillSlot (s : State) : Host.Outcome State Fault Refusal :=
  .next (if s.streaming && fillDue s then
      appendOut (.free .fill) { s with siu := { s.siu with fill :=
        { s.siu.fill with created := s.siu.fill.created + 1, sinceLast := 0 } } }
    else s)

end Sys2Proof.Machine
end

