-- ==== Sys2Proof/Machine/Walks.lean ====
section
/-! DEFINITION. The rows of the Store Walker (R60, R62, R64, R66 to R69, R91). -/

namespace Sys2Proof.Machine

/-- The walk of a queue entry, from cohort 0 with its skip counts at 0 (R66). -/
def QueuedWalk.begin (q : QueuedWalk) : Walk :=
  { kind := if q.refund then .refund q.slot else .wipe q.slot, cohort := 0, rowSkips := 0, seatSkips := 0 }

/-- WALK_START: the head of the Walk Queue begins, the store READY and the Walker free (R66). -/
def execWalkStart (s : State) : Host.Outcome State Fault Refusal :=
  .next (match s.sst.walk, s.sst.walkQueue with
    | none, q :: rest =>
      if s.running && decide (s.sst.store = .ready) then
        { s with sst := { s.sst with walk := some q.begin, walkQueue := rest } }
      else s
    | none, [] => s
    | some _, _ => s)

/-- CLEAR_WALK_STEP: one cohort step of the CLEAR walk (R60). -/
def execClearWalkStep (s : State) : Host.Outcome State Fault Refusal :=
  .next (match s.sst.walk with
    | some w =>
      if s.running && decide (s.sst.store = .clearing) && decide (w.kind = .clear) then clearStep w.cohort s else s
    | none => s)

/-- VERIFY_WALK_STEP: one cohort step of the VERIFY walk (R62, R64). -/
def execVerifyWalkStep (s : State) : Host.Outcome State Fault Refusal :=
  .next (match s.sst.walk with
    | some w =>
      if s.running && decide (s.sst.store = .verifying) && decide (w.kind = .verify) then verifyStep w.cohort s else s
    | none => s)

/-- WIPE_WALK_STEP: one cohort step of the WIPE walk under way (R68). -/
def execWipeWalkStep (s : State) : Host.Outcome State Fault Refusal :=
  .next (match s.sst.walk with
    | some w =>
      match w.kind with
      | .wipe m => if s.running && decide (s.sst.store = .ready) then wipeStep m w.cohort s else s
      | .refund _ => s
      | .clear => s
      | .verify => s
    | none => s)

/-- REFUND_WALK_STEP: one cohort step of the REFUND walk under way (R69, R91). -/
def execRefundWalkStep (s : State) : Host.Outcome State Fault Refusal :=
  .next (match s.sst.walk with
    | some w =>
      match w.kind with
      | .refund m => if s.running && decide (s.sst.store = .ready) then refundStep m w.cohort s else s
      | .wipe _ => s
      | .clear => s
      | .verify => s
    | none => s)

end Sys2Proof.Machine
end

