-- ==== Sys2Proof/Machine/Dispatch.lean ====
section
/-! DEFINITION. The dispatch: one arm for each row of spec/opcode_table.json, each one call of the row's meaning. -/

namespace Sys2Proof.Machine

/-- The meaning of each operation or event. -/
def exec (i : Instr) (s : State) : Host.Outcome State Fault Refusal :=
  match i with
  | .syncCandidate b => Sys2Proof.Machine.execSyncCandidate b s
  | .checkSilenceTimeout => Sys2Proof.Machine.execCheckSilenceTimeout s
  | .lockedSilenceTimeout => Sys2Proof.Machine.execLockedSilenceTimeout s
  | .packetTaken p => Sys2Proof.Machine.execPacketTaken p s
  | .fillSlot => Sys2Proof.Machine.execFillSlot s
  | .freeSlot => Sys2Proof.Machine.execFreeSlot s
  | .grantMessageEmitted => Sys2Proof.Machine.execGrantMessageEmitted s
  | .reportPacketEmitted => Sys2Proof.Machine.execReportPacketEmitted s
  | .sweepStep => Sys2Proof.Machine.execSweepStep s
  | .streamTimeAdvance => Sys2Proof.Machine.execStreamTimeAdvance s
  | .holdoverEntered => Sys2Proof.Machine.execHoldoverEntered s
  | .candidateTimeout => Sys2Proof.Machine.execCandidateTimeout s
  | .cryptoPeriodBoundary => Sys2Proof.Machine.execCryptoPeriodBoundary s
  | .sweepAgeIncrement m => Sys2Proof.Machine.execSweepAgeIncrement m s
  | .wordMessageTimerExpiry m => Sys2Proof.Machine.execWordMessageTimerExpiry m s
  | .statusTimerExpiry => Sys2Proof.Machine.execStatusTimerExpiry s
  | .paceTimerExpiry => Sys2Proof.Machine.execPaceTimerExpiry s
  | .walkStart => Sys2Proof.Machine.execWalkStart s
  | .clearWalkStep => Sys2Proof.Machine.execClearWalkStep s
  | .verifyWalkStep => Sys2Proof.Machine.execVerifyWalkStep s
  | .wipeWalkStep => Sys2Proof.Machine.execWipeWalkStep s
  | .refundWalkStep => Sys2Proof.Machine.execRefundWalkStep s
  | .commandStart => Sys2Proof.Machine.execCommandStart s
  | .defineMatch slot img => Sys2Proof.Machine.execDefineMatch slot img s
  | .commitSchedule m => Sys2Proof.Machine.execCommitSchedule m s
  | .readMatch slot => Sys2Proof.Machine.execReadMatch slot s
  | .finalWhistle slot => Sys2Proof.Machine.execFinalWhistle slot s
  | .abandonMatch slot => Sys2Proof.Machine.execAbandonMatch slot s
  | .clearSlot slot => Sys2Proof.Machine.execClearSlot slot s
  | .setBlackout slot op regions => Sys2Proof.Machine.execSetBlackout slot op regions s
  | .forceRollover slot => Sys2Proof.Machine.execForceRollover slot s
  | .purchase seat slot mode => Sys2Proof.Machine.execPurchase seat slot mode s
  | .refund seat slot => Sys2Proof.Machine.execRefund seat slot s
  | .withdraw seat slot => Sys2Proof.Machine.execWithdraw seat slot s
  | .suspend seat => Sys2Proof.Machine.execSuspend seat s
  | .resume seat => Sys2Proof.Machine.execResume seat s
  | .setRegion seat region => Sys2Proof.Machine.execSetRegion seat region s
  | .topUpCredit seat amount => Sys2Proof.Machine.execTopUpCredit seat amount s
  | .clearSeatMarks seat => Sys2Proof.Machine.execClearSeatMarks seat s
  | .loadCohortRow cohort row => Sys2Proof.Machine.execLoadCohortRow cohort row s
  | .loadSeatRecords seat rec => Sys2Proof.Machine.execLoadSeatRecords seat rec s
  | .querySeat seat => Sys2Proof.Machine.execQuerySeat seat s
  | .readPoisonList => Sys2Proof.Machine.execReadPoisonList s
  | .clearStore => Sys2Proof.Machine.execClearStore s
  | .addHouseSeat seat => Sys2Proof.Machine.execAddHouseSeat seat s
  | .removeHouseSeat seat => Sys2Proof.Machine.execRemoveHouseSeat seat s
  | .readHouseList => Sys2Proof.Machine.execReadHouseList s
  | .setPidClass pid cls => Sys2Proof.Machine.execSetPidClass pid cls s
  | .setSettings pairs => Sys2Proof.Machine.execSetSettings pairs s
  | .readSettings => Sys2Proof.Machine.execReadSettings s
  | .setRootKey wrapped => Sys2Proof.Machine.execSetRootKey wrapped s
  | .releaseFault => Sys2Proof.Machine.execReleaseFault s
  | .clearStatusMarks => Sys2Proof.Machine.execClearStatusMarks s
  | .restart => Sys2Proof.Machine.execRestart s
  | .holdEntry => Sys2Proof.Machine.execHoldEntry s
  | .retainedCheckConfirmed pwarn => Sys2Proof.Machine.execRetainedCheckConfirmed pwarn s
  | .restartSelfReset => Sys2Proof.Machine.execRestartSelfReset s
  | .resetn cut => Sys2Proof.Machine.execResetn cut s
  | .vbakLoss spoiled => Sys2Proof.Machine.execVbakLoss spoiled s
  | .mainSupplyLoss spoiled => Sys2Proof.Machine.execMainSupplyLoss spoiled s

end Sys2Proof.Machine
end

