-- ==== Sys2Proof/Machine/Schedule.lean ====
section
/-! DEFINITION. The passing of time: one REFCLK period, the local ticks it makes, and the events that fall due at it
(R11, R17, R23, R26, R37, R120, R125, R148, R150; notes/assumptions/3.md, 4.md). -/

namespace Sys2Proof.Machine

/-- Input Fill counts a REFCLK period while it runs and Stream Out is driven (R11, R155). -/
def countFill (s : State) : State :=
  if s.streaming && s.filling then
    { s with siu := { s.siu with fill :=
        { s.siu.fill with elapsed := s.siu.fill.elapsed + 1, sinceLast := s.siu.fill.sinceLast + 1 } } }
  else s

/-- A rolling slot counts a local tick toward its sweep age (R120). -/
def EpochSlot.count (x : EpochSlot) : EpochSlot :=
  match x.record with
  | some r => if r.rollover.rolling then { x with ageTicks := x.ageTicks + 1 } else x
  | none => x

/-- A repeat timer that runs counts a local tick (R125). -/
def WordTimer.count (x : WordTimer) : WordTimer := { x with timer := x.timer.map (· + 1) }

/-- The period timer counts a local tick (R26). -/
def countPeriod (s : State) : State := { s with tbu := { s.tbu with periodTimer := s.tbu.periodTimer + 1 } }

/-- The period timer counts on in hold, where no boundary is presented: the next period begins by itself (R26, R28). Where hold
was entered at the tick that reached the length, its boundary not yet taken, that happens at the next tick
(notes/assumptions/3.md). -/
def countHeldPeriod (s : State) : State :=
  let t := countPeriod s
  if t.tbu.periodLength ≤ t.tbu.periodTimer then beginPeriod t else t

/-- The timers that stop with hold count a local tick (R120, R125, R148, R150, R155). -/
def countTimers (s : State) : State :=
  { s with
    epc := s.epc.map EpochSlot.count
    ina := { s.ina with
      words := s.ina.words.map WordTimer.count, statusTimer := s.ina.statusTimer + 1
      paceTimer := s.ina.paceTimer.map (· + 1) } }

/-- The silence on Stream In is counted up to 10 ms while bytes are looked for (R1, R2). -/
def countSilence (s : State) : State :=
  if s.streaming then
    { s with siu := { s.siu with
        silentTicks := if s.siu.silentTicks < 900 then s.siu.silentTicks + 1 else s.siu.silentTicks } }
  else s

/-- A local tick: the tick counter, the silence on Stream In, the period timer, and the other timers of a running part (R1, R2,
R17, R26). -/
def localTick (s : State) : State :=
  let t := countSilence { s with tbu := { s.tbu with tick := s.tbu.tick + 1, refDivider := 0 } }
  if s.running then countTimers (countPeriod t) else countHeldPeriod t

/-- The local tick counter increments at this REFCLK period: every 300th (R17). -/
def ticksNow (s : State) : Bool := decide (299 ≤ s.tbu.refDivider)

/-- One REFCLK period of a part that is not stopped. -/
def refclk (s : State) : State :=
  let t := countFill s
  if ticksNow s then localTick t else { t with tbu := { t.tbu with refDivider := t.tbu.refDivider + 1 } }

/-- The holdover timer's event, by the Timebase's state (R23). -/
def holdoverEvent (s : State) : List Instr :=
  if holdoverElapsed s then
    match s.tbu.state with
    | .tracking => [.holdoverEntered]
    | .holdover => [.candidateTimeout]
    | .noTime => []
  else []

/-- Slot m's sweep age is due to increment (R120). -/
def ageDue (s : State) (m : SlotId) : Bool :=
  match s.record m with
  | some r => r.rollover.rolling && decide (90000 ≤ (s.epochSlot m).ageTicks)
  | none => false

/-- Slot m's repeat timer has reached its interval (R125). -/
def wordDue (s : State) (m : SlotId) : Bool :=
  match (s.wordTimer m).timer with
  | some n => decide (s.settings.wordInterval * 90 ≤ n)
  | none => false

/-- The pace timer has reached its interval (R150). -/
def paceDue (s : State) : Bool :=
  match s.ina.paceTimer with
  | some n => decide (s.settings.grantPace * 9 ≤ n)
  | none => false

/-- An event where a condition holds. -/
def eventIf (b : Bool) (i : Instr) : List Instr := if b then [i] else []

/-- The events that a local tick brings to a running part, a boundary last. -/
def tickEvents (s : State) : List Instr :=
  eventIf s.now.isSome .streamTimeAdvance ++ holdoverEvent s ++
  (slotList.filter (ageDue s)).map .sweepAgeIncrement ++ (slotList.filter (wordDue s)).map .wordMessageTimerExpiry ++
  eventIf (decide (s.settings.statusInterval * 90 ≤ s.ina.statusTimer)) .statusTimerExpiry ++
  eventIf (paceDue s) .paceTimerExpiry ++
  eventIf (decide (s.tbu.periodLength ≤ s.tbu.periodTimer)) .cryptoPeriodBoundary

/-- The events due after a REFCLK period of a part whose Stream Out is driven, `ticked` saying that it made a local tick. In hold
the events of `tickEvents` do not fall due, CANDIDATE_TIMEOUT among them (R28, R127, R155; notes/assumptions/54.md, 55.md). -/
def dueEvents (ticked : Bool) (s : State) : List Instr :=
  eventIf (fillDue s) .fillSlot ++
  (if ticked then
    eventIf (decide (s.siu.lock = .check) && decide (900 ≤ s.siu.silentTicks)) .checkSilenceTimeout ++
    eventIf (decide (s.siu.lock = .locked) && decide (900 ≤ s.siu.silentTicks)) .lockedSilenceTimeout ++
    (if s.running then tickEvents s else [])
   else [])

/-- An element put at a place of a list, the end where the place lies past it. -/
def putAt (n : Nat) (i : Instr) (l : List Instr) : List Instr := l.take n ++ i :: l.drop n

/-- The row is a SWEEP_AGE_INCREMENT. -/
def isAgeRow (i : Instr) : Bool :=
  match i with
  | .sweepAgeIncrement _ => true
  | _ => false

/-- How many elements a list has up to and including its last SWEEP_AGE_INCREMENT. -/
def pastAges : List Instr → Nat
  | [] => 0
  | i :: rest => if (i :: rest).any isAgeRow then pastAges rest + 1 else 0

/-- The first place that an event may take among those that fall with it: a boundary stands behind every SWEEP_AGE_INCREMENT,
since a switch carries the whole local seconds since SWEEPING began, those of its own tick among them (7.1, R115, R116, R120,
the worked example of 7.9). -/
def firstPlace (i : Instr) (l : List Instr) : Nat :=
  match i with
  | .cryptoPeriodBoundary => pastAges l
  | _ => 0

/-- Events that fall together stand in an order that Config leaves free (notes/assumptions/4.md), but for a boundary's place. -/
def arrange (seed : Nat) : Nat → List Instr → List Instr → List Instr
  | _, [], acc => acc
  | k, i :: rest, [] => arrange seed (k + 1) rest [i]
  | k, i :: rest, a :: acc =>
    let lo := firstPlace i (a :: acc)
    arrange seed (k + 1) rest (putAt (lo + Config.tieBreak seed k % (acc.length + 2 - lo)) i (a :: acc))

/-- The due events join the queue of commands; an order that had to be chosen uses up a free value. -/
def queueDue (l : List Instr) (s : State) : State :=
  { s with pending := s.pending ++ arrange s.frees 0 l [], frees := if 2 ≤ l.length then s.frees + 1 else s.frees }

/-- What a step does with no command waiting: a REFCLK period passes, unless the main supply is lost; once the retained check
is confirmed it brings no event. -/
def idle (s : State) : State :=
  if s.streaming then queueDue (dueEvents (ticksNow s) (refclk s)) (refclk s)
  else if s.powered then refclk s
  else s

end Sys2Proof.Machine
end

