-- ==== Sys2Proof/Safety.lean ====
section
/-! DEFINITION. What counts as a lawful state of the part, in the terms the statements use: the laws that the spec's rules keep,
block by block, and the conditions under which a row takes its effect. -/

namespace Sys2Proof.Machine

/-! ## Laws of the part -/

/-- A value lies in a range. -/
abbrev within (lo hi v : Nat) : Prop := lo ≤ v ∧ v ≤ hi

/-- A value is 0 or lies in a range. -/
abbrev offOrWithin (lo hi v : Nat) : Prop := v = 0 ∨ within lo hi v

/-- The settings lie in the ranges of section 10.6. -/
structure Settings.lawful (t : Settings) : Prop where
  cryptoPeriod : within 2 60 t.cryptoPeriod
  wordInterval : within 20 500 t.wordInterval
  grantPace : offOrWithin 1 10000 t.grantPace
  freshRunLimit : within 1 8 t.freshRunLimit
  freshRepeats : within 1 3 t.freshRepeats
  rolloverPasses : within 1 4 t.rolloverPasses
  rushThreshold : offOrWithin 10 1800 t.rushThreshold
  rolloverDeadline : within 30 3600 t.rolloverDeadline
  epochLifetime : offOrWithin 5 240 t.epochLifetime
  creditCap : within 1 65535 t.creditCap
  holdoverLimit : within 100 2000 t.holdoverLimit
  statusInterval : within 500 10000 t.statusInterval
  fillRate : within 1000 200000 t.fillRate
  activeCohorts : within 1 32768 t.activeCohorts
  controlPid : within 0x20 0x1FFE t.controlPid
  reportPid : within 0x20 0x1FFE t.reportPid
  grantPid : within 0x20 0x1FFE t.grantPid
  clockPid : within 0 0x1FFE t.clockPid

/-- The walk under way stands at a cohort of the store (R60, R62, R66). -/
def walkInRange (s : State) : Prop := ∀ w, s.sst.walk = some w → w.cohort < cohortCount

/-- The stored memories are canonical and within the store's size, and so is all that decides where a write goes. -/
structure State.memoryLawful (s : State) : Prop where
  settings : s.settings.lawful
  walk : walkInRange s
  memory : memoryWf s = true

/-- The queues and lists hold no more than the spec allows and nothing twice (R52, R57, R135, R150, R158, section 11.2). A
command in execution holds the reservation for its result (R159). -/
structure State.queuesLawful (s : State) : Prop where
  poisonRoom : s.sst.poison.length ≤ 64
  poisonOnce : s.sst.poison.Nodup
  houseRoom : s.sst.house.length ≤ 64
  houseOnce : s.sst.house.Nodup
  freshRoom : s.gcr.fresh.length ≤ 1024
  freshOnce : (s.gcr.fresh.map fun p => (p.cohort, p.slot)).Nodup
  credits : s.ina.credits ≤ 2
  commandRoom : s.cmu.queue.length ≤ 8
  reportRoom : s.rpu.places ≤ 64
  reserved : s.cmu.executing.isSome → s.rpu.reserved

/-- The fields of an epoch record agree with its rollover state (section 7.1, R110, R117, R119, R120). -/
structure EpochRecord.lawful (r : EpochRecord) : Prop where
  pendingKey : r.pendingKey.isSome = r.rollover.rolling
  quiet : r.rollover.rolling = false → r.sweepAge = 0 ∧ r.redo = false
  passes : r.rollover ≠ .sweeping → r.passesLeft = 0
  cause : r.cause.isSome ↔ r.rollover = .pending

/-- Slot m's records, end mark and Word Message state agree with its state (R30, R31, R43, R109, R123, R125, R147). -/
structure State.slotLawful (s : State) (m : SlotId) : Prop where
  live : (s.slot m).live.isNone ↔ (s.slot m).state = .empty
  record : (s.record m).isNone ↔ (s.slot m).state = .empty
  ended : (s.slot m).state = .ended → (s.slot m).endMark.isSome
  endMark : (s.slot m).endMark.isSome →
    (s.slot m).state = .ended ∨ (s.slot m).state = .closed ∨ (s.slot m).state = .wiping
  timer : (s.wordTimer m).timer.isSome = (s.slot m).state.words
  due : (s.wordTimer m).due.isSome → (s.slot m).state.words
  epoch : ∀ r, s.record m = some r → r.lawful
  steady : ∀ r, s.record m = some r → s.granting m = false → r.rollover = .steady

/-- The WIPE (false) and REFUND (true) walks under way and waiting, each with its slot (R66). -/
def State.walkSlots (s : State) : List (Bool × SlotId) :=
  (match s.sst.walk with
   | some w => (match w.kind with | .wipe m => [(false, m)] | .refund m => [(true, m)] | .clear => [] | .verify => [])
   | none => []) ++ s.sst.walkQueue.map fun q => (q.refund, q.slot)

/-- Every slot is lawful; a slot with a WIPE walk is WIPING, one with a REFUND walk is ABANDONED, and no slot has two walks
(R40, R42, R64, R66). -/
structure State.slotsLawful (s : State) : Prop where
  slots : ∀ m, s.slotLawful m
  walks : ∀ p ∈ s.walkSlots, (s.slot p.2).state = if p.1 then .abandoned else .wiping
  once : (s.walkSlots.map (·.2)).Nodup

/-- The states in which a slot's identifiers are claimed (section 3.4). -/
def SlotState.claimed : SlotState → Bool
  | .scheduled | .onSale | .preview | .live | .extended | .ended | .abandoned => true
  | .empty | .closed | .wiping => false

/-- The PID Map gives every claimed identifier to its slot and keeps the marks of the settings and of 0x1FFF (R5, R7, R8). -/
structure State.pidsLawful (s : State) : Prop where
  service : ∀ m rec, s.live m = some rec → (s.slot m).state.claimed → ∀ p ∈ rec.servicePids, s.siu.classOf p = .service m
  word : ∀ m rec, s.live m = some rec → (s.slot m).state.claimed → s.siu.classOf rec.wordPid = .ownedWord m
  control : s.siu.classOf s.settings.controlPid = .control
  report : s.siu.classOf s.settings.reportPid = .ownedReport
  grant : s.siu.classOf s.settings.grantPid = .ownedGrant
  null : s.siu.classOf 0x1FFF = .null

/-- The retained domain is the same in two states (0.6.7 and the reset tables of R16, R49, R75, R128, R169, R177). -/
structure sameRetained (s t : State) : Prop where
  pidMap : t.siu.pidMap = s.siu.pidMap
  slots : ∀ m, (t.slot m).state = (s.slot m).state ∧ t.live m = s.live m ∧ (t.slot m).endMark = (s.slot m).endMark
  records : ∀ m, t.record m = s.record m
  poison : t.sst.poison = s.sst.poison
  house : t.sst.house = s.sst.house
  signature : t.sst.signature = s.sst.signature
  lastAccepted : t.cmu.lastAccepted = s.cmu.lastAccepted
  progress : t.cmu.progress = s.cmu.progress
  rootKey : t.cmu.rootKey = s.cmu.rootKey
  settings : t.settings = s.settings
  fault : t.rpu.fault = s.rpu.fault

/-! ## Conditions under which a row takes its effect -/

/-- The part runs, command x is in execution, and row i is its next unit (R161). -/
abbrev Takes (i : Instr) (x : Executing) (s : State) : Prop :=
  s.power.phase = .running ∧ s.cmu.executing = some x ∧ x.todo.head? = some i

/-- Hold has found command x in execution with row i as the unit it has in hand (R167 step 2). -/
abbrev InHand (i : Instr) (x : Executing) (s : State) : Prop :=
  s.power.phase = .finishing ∧ s.cmu.executing = some x ∧ x.todo.head? = some i

/-- The row stands for a unit of a command (R161). -/
def unitRow (i : Instr) : Bool :=
  match i with
  | .defineMatch _ _ | .commitSchedule _ | .readMatch _ | .finalWhistle _ | .abandonMatch _ | .clearSlot _
  | .setBlackout _ _ _ | .forceRollover _ | .purchase _ _ _ | .refund _ _ | .withdraw _ _ | .suspend _ | .resume _
  | .setRegion _ _ | .topUpCredit _ _ | .clearSeatMarks _ | .loadCohortRow _ _ | .loadSeatRecords _ _ | .querySeat _
  | .readPoisonList | .clearStore | .addHouseSeat _ | .removeHouseSeat _ | .readHouseList | .setPidClass _ _
  | .setSettings _ | .readSettings | .setRootKey _ | .releaseFault | .clearStatusMarks | .restart => true
  | _ => false

/-- What a unit row does to the state before its command goes on or ends: its item, or the whole command (R161). RESTART, which
ends differently (R168), is left out. -/
def unitEffect (i : Instr) (s : State) : State :=
  match i with
  | .defineMatch slot img => (defineMatch slot img s).2
  | .commitSchedule m => (commitItem m s).2
  | .finalWhistle slot => (onSlot slot whistle s).2
  | .abandonMatch slot => (onSlot slot abandon s).2
  | .clearSlot slot => (onSlot slot clearTheSlot s).2
  | .setBlackout slot op l => (setBlackout slot op l s).2
  | .forceRollover slot => (onSlot slot force s).2
  | .purchase seat slot mode => (purchaseItem seat slot mode s).2
  | .refund seat slot => (refundItem seat slot s).2
  | .withdraw seat slot => (withdrawItem seat slot s).2
  | .suspend seat => (withRow seat (suspendChecks seat) s).2
  | .resume seat => (withRow seat (resumeChecks seat) s).2
  | .setRegion seat g => (withRow seat (regionChecks seat g) s).2
  | .topUpCredit seat amount => (withRecord seat (topUpChecks seat amount) s).2
  | .clearSeatMarks seat => (withRecord seat (clearMarkChecks seat) s).2
  | .loadCohortRow cohort row => (loadCohortRow cohort row s).2
  | .loadSeatRecords seat rec => (loadRecordItem seat rec s).2
  | .querySeat seat => (querySeat seat s).2
  | .clearStore => cutAndClear s
  | .addHouseSeat seat => (addHouse seat s).2
  | .removeHouseSeat seat => (removeHouse seat s).2
  | .setPidClass pid cls => (pidItem pid cls s).2
  | .setSettings pairs => (changeSettings pairs s).2
  | .setRootKey wrapped => (changeRootKey wrapped s).2
  | .releaseFault => releaseRecord s
  | .clearStatusMarks => clearMarks s
  | _ => s

/-! ## Time -/

/-- The REFCLK period that passes next makes a local tick: it is the 300th (R17). -/
abbrev tickNext (s : State) : Prop := 299 ≤ s.tbu.refDivider

/-- Row i falls due at the REFCLK period that passes next (R1, R2, R11, R18, R23, R26, R120, R125, R148, R150). In hold the
silence and the fill slots alone bring rows (R28, R155). -/
def fallsDue (s : State) (i : Instr) : Prop :=
  match i with
  | .fillSlot => s.siu.lock ≠ .locked ∧
      (s.siu.fill.created + 1) * 27000000 ≤ (s.siu.fill.elapsed + 1) * s.settings.fillRate
  | .checkSilenceTimeout => tickNext s ∧ s.siu.lock = .check ∧ 899 ≤ s.siu.silentTicks
  | .lockedSilenceTimeout => tickNext s ∧ s.siu.lock = .locked ∧ 899 ≤ s.siu.silentTicks
  | .streamTimeAdvance => tickNext s ∧ s.running = true ∧ s.now.isSome = true
  | .holdoverEntered => tickNext s ∧ s.running = true ∧ s.tbu.state = .tracking ∧
      ∃ a, s.tbu.holdoverSince = some a ∧ s.settings.holdoverLimit * 90 ≤ (s.tbu.tick + 1 - a).toNat
  | .candidateTimeout => tickNext s ∧ s.running = true ∧ s.tbu.state = .holdover ∧
      ∃ a, s.tbu.holdoverSince = some a ∧ s.settings.holdoverLimit * 90 ≤ (s.tbu.tick + 1 - a).toNat
  | .cryptoPeriodBoundary => tickNext s ∧ s.running = true ∧ s.tbu.periodLength ≤ s.tbu.periodTimer + 1
  | .sweepAgeIncrement m => tickNext s ∧ s.running = true ∧
      ∃ r, s.record m = some r ∧ r.rollover.rolling = true ∧ 90000 ≤ (s.epochSlot m).ageTicks + 1
  | .wordMessageTimerExpiry m => tickNext s ∧ s.running = true ∧
      ∃ n, (s.wordTimer m).timer = some n ∧ s.settings.wordInterval * 90 ≤ n + 1
  | .statusTimerExpiry => tickNext s ∧ s.running = true ∧ s.settings.statusInterval * 90 ≤ s.ina.statusTimer + 1
  | .paceTimerExpiry => tickNext s ∧ s.running = true ∧
      ∃ n, s.ina.paceTimer = some n ∧ s.settings.grantPace * 9 ≤ n + 1
  | _ => False

/-! ## Reports -/

/-- Reports offered to the Report Queue in this order (R170, R171). -/
def offerAll (l : List ReportBody) (s : State) : State := l.foldl (fun t b => offer b t) s

/-- Between two states exactly these reports have been offered, in this order. -/
def reports (l : List ReportBody) (s t : State) : Prop := t.rpu = (offerAll l s).rpu ∧ t.cmu = (offerAll l s).cmu

/-- The report of slot m's change of state, with the live record's match id, 0 where it becomes EMPTY, and its end mark where it
enters ENDED (R46). -/
def stateReport (s : State) (m : SlotId) (dest : SlotState) (cause : StateCause) (mark : Option StreamTime) : ReportBody :=
  .matchState m (if dest = .empty then 0 else s.matchId m) (s.slot m).state dest cause mark

/-- The report of a rollover that slot m drops as it leaves the granting states; none where it is STEADY (R123, R126). -/
def dropReports (s : State) (m : SlotId) : List ReportBody :=
  match s.record m with
  | some r => if r.rollover = .steady then [] else [.rolloverAbandoned m (s.matchId m) r.epoch r.rollover]
  | none => []

/-- What slot m reports as a walk of it is cut (R70): a WIPING slot its change to EMPTY, an ABANDONED one the walk's place and
skips, zeros where the walk had not begun, and its change to CLOSED. -/
def cutReports (s : State) (m : SlotId) : List ReportBody :=
  match (s.slot m).state, s.sst.walk with
  | .wiping, _ => [stateReport s m .empty .walkCut none]
  | .abandoned, some w =>
    [if w.kind = .refund m then .refundCut m w.cohort w.rowSkips w.seatSkips else .refundCut m 0 0 0,
     stateReport s m .closed .walkCut none]
  | .abandoned, none => [.refundCut m 0 0 0, stateReport s m .closed .walkCut none]
  | _, _ => []

/-- A granting slot's record switches at a boundary: SWITCHING, or SWEEPING at its deadline (R115, R116). -/
def switches (s : State) (r : EpochRecord) : Bool :=
  decide (r.rollover = .switching) || (decide (r.rollover = .sweeping) && decide (s.settings.rolloverDeadline ≤ r.sweepAge))

/-- The passes a rollover that starts at this boundary owes (R117). -/
def passesNow (s : State) : Nat := if s.passStart then s.settings.rolloverPasses else s.settings.rolloverPasses + 1

/-- What slot m reports at a boundary: its switch, DONE or FORCED, and the start of a rollover with its cause
(R114 to R117, R126). -/
def boundaryReports (s : State) (m : SlotId) : List ReportBody :=
  match s.record m with
  | none => []
  | some r =>
    if s.granting m = false then []
    else if switches s r then
      (if r.rollover = .switching then .rolloverDone m (s.matchId m) (r.epoch + 1) r.sweepAge r.redo
       else .rolloverForced m (s.matchId m) (r.epoch + 1) r.sweepAge r.passesLeft r.redo) ::
      (if r.redo then [.rolloverStarted m (s.matchId m) (r.epoch + 1) .redo (passesNow s)] else [])
    else if r.rollover = .pending then [.rolloverStarted m (s.matchId m) r.epoch .notice (passesNow s)]
    else if r.rollover = .steady ∧ s.settings.epochLifetime ≠ 0 ∧
        s.settings.epochLifetime * 60 ≤ satInc r.epochAge * s.settings.cryptoPeriod then
      [.rolloverStarted m (s.matchId m) r.epoch .lifetime (passesNow s)]
    else []

/-- The identifiers of a live record are PASS again and its Word PID's counter is discarded; other identifiers keep class and
counter (R7, R13, R43). -/
def releases (rec : MatchRecord) (s t : State) : Prop :=
  (∀ p ∈ rec.claims, t.siu.classOf p = .pass) ∧ (∀ p, p ∉ rec.claims → t.siu.classOf p = s.siu.classOf p) ∧
    counterOf t rec.wordPid = 0 ∧ ∀ p, p ≠ rec.wordPid → counterOf t p = counterOf s p

/-! ## The fresh build -/

/-- How a fresh build goes through the Fresh Queue (R136, R137): from a queue and a state whose packet in build holds the entries
so far, to the queue's rest, the pairs whose entries the packet carries, and the state. It ends at an empty queue, at six
entries, or at a head whose entries do not fit; a pair of a slot that is not granting, or without an entry, is used up. -/
inductive FreshBuilds : List FreshPair → State → List FreshPair → List FreshPair → State → Prop
  | atEnd (s : State) : FreshBuilds [] s [] [] s
  | full (p : FreshPair) (q : List FreshPair) (s : State) : 6 ≤ s.gcr.building.length → FreshBuilds (p :: q) s (p :: q) [] s
  | noRoom (p : FreshPair) (q : List FreshPair) (s : State) (r : EpochRecord) : s.granting p.slot = true →
      s.record p.slot = some r → 6 < s.gcr.building.length + (if r.rollover.rolling then 2 else 1) →
      FreshBuilds (p :: q) s (p :: q) [] s
  | notGranting (p : FreshPair) (q rest pairs : List FreshPair) (s t : State) : s.gcr.building.length < 6 →
      s.granting p.slot = false → FreshBuilds q s rest pairs t → FreshBuilds (p :: q) s rest pairs t
  | noEntry (p : FreshPair) (q rest pairs : List FreshPair) (s u t : State) (row : Option RowImage) :
      s.gcr.building.length < 6 → s.granting p.slot = true →
      (∀ r, s.record p.slot = some r → s.gcr.building.length + (if r.rollover.rolling then 2 else 1) ≤ 6) →
      rowForBuild p.cohort true s = (row, u) → entriesFor true u p.cohort row p.slot = [] →
      FreshBuilds q u rest pairs t → FreshBuilds (p :: q) s rest pairs t
  | taken (p : FreshPair) (q rest pairs : List FreshPair) (s u t : State) (row : Option RowImage) (es : List GrantEntry) :
      s.gcr.building.length < 6 → s.granting p.slot = true →
      (∀ r, s.record p.slot = some r → s.gcr.building.length + (if r.rollover.rolling then 2 else 1) ≤ 6) →
      rowForBuild p.cohort true s = (row, u) → entriesFor true u p.cohort row p.slot = es → es ≠ [] →
      FreshBuilds q { u with gcr := { u.gcr with building := u.gcr.building ++ es } } rest pairs t →
      FreshBuilds (p :: q) s rest (p :: pairs) t

/-- A store state in which items are read and written (section 4.4). -/
abbrev storeOpen (s : State) : Prop := s.sst.store = .ready ∨ s.sst.store = .verifying

/-- A seat item that gets past checks 2 and 3 of R77. -/
abbrev seatOpen (seat : Nat) (s : State) : Prop := seat < s.settings.activeCohorts * 32 ∧ storeOpen s

/-- Cohort c's row is not on the Poison List and its digest checks (R51). -/
abbrev rowReadable (c : Nat) (s : State) : Prop :=
  isPoisoned s .row c = false ∧ rowDigest (rowAt s c).content = (rowAt s c).digest

/-- A seat's record is not on the Poison List and its digest checks (R51). -/
abbrev recordReadable (seat : Nat) (s : State) : Prop :=
  isPoisoned s .seat seat = false ∧ recordDigest (recordAt s seat).content = (recordAt s seat).digest

/-- Among the rows, only cohort c's has changed: it holds this content with its digest (R50). -/
def rowBecomes (c : Nat) (r : RowImage) (s t : State) : Prop :=
  rowAt t c = { content := r, digest := rowDigest r } ∧ ∀ d, d ≠ c → rowAt t d = rowAt s d

/-- Among the records, only this seat's has changed: it holds this content with its digest (R50). -/
def recordBecomes (seat : Nat) (q : RecordImage) (s t : State) : Prop :=
  recordAt t seat = { content := q, digest := recordDigest q } ∧ ∀ n, n ≠ seat → recordAt t n = recordAt s n

/-- The VERIFY walk has passed the step of cohort c (R62). -/
def scanned (c : Nat) (s : State) : Prop :=
  s.sst.store = .verifying ∧ ∃ w, s.sst.walk = some w ∧ w.kind = .verify ∧ c < w.cohort

/-- Writes in cohort c that changed stored digests by d are booked: into the signature (R56), and into the accumulator exactly
where the VERIFY walk has passed the cohort (R63). -/
def booked (c : Nat) (d : BitVec 32) (s t : State) : Prop :=
  t.sst.signature = s.sst.signature ^^^ d ∧ (scanned c s → t.sst.accumulator = s.sst.accumulator ^^^ d) ∧
    (¬scanned c s → t.sst.accumulator = s.sst.accumulator)

/-- Every row reads as before. -/
def rowsSame (s t : State) : Prop := ∀ c, rowAt t c = rowAt s c

/-- Every record reads as before. -/
def recordsSame (s t : State) : Prop := ∀ n, recordAt t n = recordAt s n

/-! ## The output sequence -/

/-- The output sequence as one list: what has been sent, the packet in transmission, the positions not begun (R9). -/
def OutPath.sequence (o : OutPath) : List OutPosition :=
  o.sent.map .packet ++ (match o.sending with | some y => [.packet y.bytes] | none => []) ++ o.positions

/-- The output has reached a free slot: it heads the positions, and no packet whose emission is still to be told is in
transmission (R146). -/
abbrev atFree (src : FreeSource) (rest : List OutPosition) (s : State) : Prop :=
  s.streaming = true ∧ s.out.positions = .free src :: rest ∧ s.out.sending.all (fun y => decide (y.emission = .quiet)) = true

/-- The state once the free slot at the head has been taken: the quiet packet before it has been sent (R146). -/
def afterTake (rest : List OutPosition) (s : State) : State :=
  { s with out := { positions := rest, sending := none
                    sent := s.out.sent ++ (match s.out.sending with | some y => [y.bytes] | none => []) } }

/-- The free slot at the head carries this packet, which is in transmission until its emission is told (R133, R146, R172). -/
def carries (q : List (BitVec 8)) (e : Emission) (rest : List OutPosition) (s t : State) : Prop :=
  t.out = { (afterTake rest s).out with sending := some { bytes := q, emission := e } }

/-- Slot m's Word Message due was set first: no later than every other slot's, and before that of every lower slot (R147). -/
abbrev firstDue (m : SlotId) (s : State) : Prop :=
  (s.wordTimer m).due.isSome = true ∧ ∀ b, b ≠ m → (match (s.wordTimer m).due, (s.wordTimer b).due with
    | some d, some e => decide (ticksBetween e s.tbu.tick < ticksBetween d s.tbu.tick ∨
        (ticksBetween e s.tbu.tick = ticksBetween d s.tbu.tick ∧ m.val < b.val))
    | _, none => true
    | none, _ => true) = true

/-- The continuity counters after a packet inserted on an identifier: its own one on, the others as they were (R13). -/
def counts (pid : Nat) (s t : State) : Prop :=
  counterOf t pid = counterOf s pid + 1 ∧ ∀ p, p ≠ pid → counterOf t p = counterOf s p

/-- The free slot at the head of the positions carries packet q, in its place (R146). -/
def fills (q : List (BitVec 8)) (rest : List OutPosition) (s t : State) : Prop :=
  t.out.sequence = s.out.sent.map .packet ++ (match s.out.sending with | some y => [.packet y.bytes] | none => []) ++
    .packet q :: rest

/-- No Word Message is due. -/
abbrev noWordDue (s : State) : Prop := ∀ m, (s.wordTimer m).due = none

/-- Candidates 1 to 3 of R146 are absent. -/
abbrev onlyGrants (s : State) : Prop := noWordDue s ∧ s.ina.statusDue = false ∧ s.rpu.entries = []

/-- A packet of 188 bytes with a good sync byte is taken in LOCKED
(R2). -/
abbrev arrives (p : List (BitVec 8)) (s : State) : Prop :=
  s.streaming = true ∧ s.siu.lock = .locked ∧ p.length = 188 ∧ byteAt p 0 = 0x47

/-- The packet carries no reference for the Timebase: none at all, or not on the Clock PID (R10). -/
abbrev noReference (p : List (BitVec 8)) (s : State) : Prop := clockBase p = none ∨ pidOf p ≠ s.settings.clockPid

/-- The Stream Input Unit once a packet with a good sync byte has been taken (R2). -/
def synced (s : State) : State := { s with siu := { s.siu with badSyncs := 0, silentTicks := 0 } }

/-! ## Order of the lifecycle -/

/-- How far a slot state lies along the lifecycle of section 3.4. -/
def SlotState.rank : SlotState → Nat
  | .empty => 0 | .scheduled => 1 | .onSale => 2 | .preview => 3 | .live => 4 | .extended => 5 | .ended => 6
  | .abandoned => 7 | .closed => 8 | .wiping => 9

/-! ## Digests of a cohort step -/

/-- The XOR of the stored digests of the 32 records of cohort c. -/
def recordDigests (s : State) (c : Nat) : BitVec 32 :=
  memberList.foldl (fun acc i => acc ^^^ (recordAt s (seatOf c i)).digest) 0

/-- The 33 items of cohort c are readable (R51). -/
abbrev cohortReadable (c : Nat) (s : State) : Prop := rowReadable c s ∧ ∀ i, recordReadable (seatOf c i) s

/-! ## What a cohort step reads -/

/-- The items of cohort c in the order in which a step reads them (R62, R67). -/
def cohortItems (c : Nat) : List PoisonEntry :=
  { kind := .row, index := c } :: memberList.map fun i => { kind := .seat, index := seatOf c i }

/-- The digest computed over an item's content is not the stored one (R51). -/
def digestFails (s : State) (e : PoisonEntry) : Bool :=
  match e.kind with
  | .row => decide (rowDigest (rowAt s e.index).content ≠ (rowAt s e.index).digest)
  | .seat => decide (recordDigest (recordAt s e.index).content ≠ (recordAt s e.index).digest)

/-- Those of the items read whose digest fails without their being listed, in the order in which they are read (R51, R52). -/
def failing (s : State) (l : List PoisonEntry) : List PoisonEntry :=
  l.filter fun e => !isPoisoned s e.kind e.index && digestFails s e

/-- How many entries the Poison List has room for (R52). -/
def State.poisonRoom (s : State) : Nat := 64 - s.sst.poison.length

/-- The faults of items that fail with room on the Poison List, in the order in which they are read (R52). -/
def checkFaults (l : List PoisonEntry) (s : State) : State := l.foldl (fun t e => takeFault e.kind.fault e.index e.kind t) s

/-- The faults of items that fail and find the Poison List full (R52). -/
def overflowFaults (l : List PoisonEntry) (s : State) : State :=
  l.foldl (fun t e => takeFault .poisonOverflow e.index e.kind t) s

/-- What a step in READY hands to the Report Unit for the items that fail in it: their faults as long as the list has room; then
STORE FAILED for the first that finds it full, and the overflow of that one and of those after it (R52, R65). -/
def readyFaults (l : List PoisonEntry) (s : State) : State :=
  match l.drop s.poisonRoom with
  | [] => checkFaults l s
  | e :: rest => overflowFaults (e :: rest) (offer (.storeFailed e.index) (checkFaults (l.take s.poisonRoom) s))

/-- Slot m's epoch record between two states, a revocation notice having been sent to the CLOSED granting slots or not
(R53, R61, R65, R112). -/
def noticed (sent : Bool) (s t : State) (m : SlotId) : Prop :=
  (t.epochSlot m).ageTicks = (s.epochSlot m).ageTicks ∧ t.record m = (s.record m).map fun r =>
    if sent = true ∧ s.grantingWith .closedPolicy m = true then r.notice (r.issued || s.carouselHolds m r.epoch) else r

/-- A step over items of which these fail in READY sends a notice to the CLOSED slots: the row is among them, or one finds the
Poison List full (R53, R65). -/
def stepNotifies (s : State) (l : List PoisonEntry) : Bool :=
  l.any (fun e => decide (e.kind = .row)) || decide (s.poisonRoom < l.length)

/-- The walk under way is this one and stands at cohort c. -/
abbrev walksAt (k : WalkKind) (c : Nat) (s : State) : Prop := (s.sst.walk.map fun w => (w.kind, w.cohort)) = some (k, c)

/-- A verify has ended LOST: the Walk Queue is empty and the store clears from cohort 0, the stored items and the House Seat List
stay, the WIPING slots are EMPTY and the ABANDONED ones CLOSED with their identifiers released, the other slots stay, and the
CLOSED ones among those that grant have had their notice (R7, R43, R60, R61, R64, R70). -/
def lostAndCleared (s t : State) : Prop :=
  t.sst = { s.sst with poison := [], signature := 0, store := .clearing, walkQueue := [], accumulator := t.sst.accumulator
                       walk := some { kind := .clear, cohort := 0, rowSkips := 0, seatSkips := 0 } } ∧
  (∀ m rec, memoryWf s = true → (s.slot m).state = .abandoned → s.live m = some rec →
    ∀ p ∈ rec.claims, t.siu.classOf p = .pass) ∧
  (∀ m, (t.slot m).state = match (s.slot m).state with | .wiping => .empty | .abandoned => .closed | x => x) ∧
  (∀ m, (s.slot m).state ≠ .wiping → (s.slot m).state ≠ .abandoned → t.slot m = s.slot m) ∧
  (∀ m, (s.slot m).state ≠ .wiping → noticed true s t m) ∧ (∀ m, (s.slot m).state = .wiping → t.record m = none) ∧
  t = { s with siu := t.siu, mtb := t.mtb, epc := t.epc, sst := t.sst, ina := t.ina, rpu := t.rpu, cmu := t.cmu }

end Sys2Proof.Machine
end

