-- ==== Sys2Proof/Certificates/Slice0/Obligations.lean ====
section
/-! DEFINITION. The statements for the provers, block by block in the order of the spec. -/

open Sys2Proof Sys2Proof.Machine

/-! ## The queue of commands, and time -/

/-- A command waiting at the front of the queue is what a step runs, on the queue's rest. -/
def Obligations.StepTakesFrontCommand : Prop :=
  ∀ (c : Instr) (rest : List Instr) (s : State),
    s.pending = c :: rest → step s = exec c { s with pending := rest }

/-- With no command waiting, a step is one REFCLK period while the supplies are up: every 300th is a local tick, in hold too
(R17), the period timer counts every tick (R26), the silence and Input Fill count until Stream Out stops (R1, R2, R11, R155),
and the other timers count in a running part (R120, R125, R148, R150, R155). Exactly the rows that fall due join the queue,
each once (R11, R18, R23, R26, R120, R125, R148, R150), a boundary behind every SWEEP_AGE_INCREMENT of its tick, since the
sweep age is the whole local seconds since SWEEPING began (section 7.1, R115, R120). That time passes on an empty queue, and
that the period timer starts again by itself in hold, are the model's choice (notes/assumptions/3.md), and so are that no
CANDIDATE_TIMEOUT falls due in hold (notes/assumptions/54.md) and that the timers stop at the entry into hold
(notes/assumptions/55.md). -/
def Obligations.IdleStepPassesOnePeriod : Prop :=
  ∀ s : State, s.pending = [] →
    (s.power.phase = .unpowered → step s = .next s) ∧
    (s.power.phase ≠ .unpowered → ∃ t, step s = .next t ∧
      (¬tickNext s → t.tbu = { s.tbu with refDivider := s.tbu.refDivider + 1 }) ∧
      (tickNext s → (s.running = true ∨ s.tbu.periodTimer + 1 < s.tbu.periodLength) → t.tbu = { s.tbu with
        refDivider := 0, tick := s.tbu.tick + 1, periodTimer := s.tbu.periodTimer + 1 }) ∧
      (tickNext s → s.running = false → s.tbu.periodLength ≤ s.tbu.periodTimer + 1 → t.tbu = { s.tbu with
        refDivider := 0, tick := s.tbu.tick + 1, periodTimer := 0
        periodLength := s.settings.cryptoPeriod * 90000 }) ∧
      (s.power.phase = .held → t = { s with tbu := t.tbu }) ∧
      (s.streaming = true →
        t = { s with siu := { s.siu with fill := t.siu.fill, silentTicks := t.siu.silentTicks }, tbu := t.tbu
                     epc := t.epc, ina := t.ina, frees := if 2 ≤ t.pending.length then s.frees + 1 else s.frees
                     pending := t.pending } ∧
        (s.siu.lock = .locked → t.siu.fill = s.siu.fill) ∧
        (s.siu.lock ≠ .locked → t.siu.fill =
          { s.siu.fill with elapsed := s.siu.fill.elapsed + 1, sinceLast := s.siu.fill.sinceLast + 1 }) ∧
        t.siu.silentTicks = (if 299 ≤ s.tbu.refDivider ∧ s.siu.silentTicks < 900 then s.siu.silentTicks + 1
                             else s.siu.silentTicks) ∧
        (¬tickNext s ∨ s.running = false → t.epc = s.epc ∧ t.ina = s.ina) ∧
        (tickNext s → s.running = true →
          t.ina = { s.ina with words := t.ina.words, statusTimer := s.ina.statusTimer + 1
                               paceTimer := s.ina.paceTimer.map (· + 1) } ∧
          ∀ m, t.wordTimer m = { s.wordTimer m with timer := (s.wordTimer m).timer.map (· + 1) } ∧
            (s.record m = none → t.epochSlot m = s.epochSlot m) ∧
            ∀ r, s.record m = some r → t.epochSlot m = { s.epochSlot m with
              ageTicks := if r.rollover.rolling then (s.epochSlot m).ageTicks + 1 else (s.epochSlot m).ageTicks }) ∧
        t.pending.Nodup ∧ (∀ i, i ∈ t.pending ↔ fallsDue s i) ∧
        ∀ a b m, t.pending = a ++ .cryptoPeriodBoundary :: b → .sweepAgeIncrement m ∉ b))

/-- "Reached" and the signed distance, as R19 defines them on the cycle of 2^33 ticks. -/
def Obligations.SignedDistanceFollowsTheCycle : Prop :=
  ∀ T t : StreamTime,
    (reached T t = true ↔ ((t.toNat : Int) - T.toNat) % 2 ^ 33 < 2 ^ 32) ∧
    signedDistance T t = ((t.toNat : Int) - T.toNat + 2 ^ 32) % 2 ^ 33 - 2 ^ 32 ∧
    -(2 ^ 32) ≤ signedDistance T t ∧ signedDistance T t ≤ 2 ^ 32 - 1 ∧
    (reached T t = true ↔ 0 ≤ signedDistance T t) ∧
    T + BitVec.ofInt 33 (signedDistance T t) = t

/-! ## Stream path -/

/-- SYNC_CANDIDATE: what a received byte does in HUNT and in CHECK at and before an expected packet start; in LOCKED it ends the
silence that R2 measures (R1, R2, R3, R11).
CHECK_SILENCE_TIMEOUT and LOCKED_SILENCE_TIMEOUT: 10 ms, 900 local ticks, without a byte end CHECK with no report, and
LOCKED as an input loss; less than that ends neither (R1, R2, R3, R4).
FILL_SLOT: while fill runs, the n-th slot is created once n × 27,000,000 ÷ Fill Rate periods of REFCLK have elapsed, and
not before; in LOCKED none is (R11). That a byte in LOCKED is told by this row, and that a row sent too early changes nothing,
are the model's choice (notes/assumptions/1.md, 5.md). -/
def Obligations.LockSilenceAndFill : Prop :=
  (∀ (b : BitVec 8) (s : State), s.streaming = true →
    (s.siu.lock = .hunt → b = 0x47 → exec (.syncCandidate b) s = .next { s with siu := { s.siu with
      lock := .check, syncCount := 1, toNextStart := 188, silentTicks := 0 } }) ∧
    (s.siu.lock = .hunt → b ≠ 0x47 →
      exec (.syncCandidate b) s = .next { s with siu := { s.siu with silentTicks := 0 } }) ∧
    (s.siu.lock = .check → 1 < s.siu.toNextStart → exec (.syncCandidate b) s = .next { s with siu := { s.siu with
      toNextStart := s.siu.toNextStart - 1, silentTicks := 0 } }) ∧
    (s.siu.lock = .check → s.siu.toNextStart ≤ 1 → b ≠ 0x47 → exec (.syncCandidate b) s = .next { s with siu :=
      { s.siu with lock := .hunt, syncCount := 0, toNextStart := 0, silentTicks := 0 } }) ∧
    (s.siu.lock = .check → s.siu.toNextStart ≤ 1 → b = 0x47 → s.siu.syncCount < 2 →
      exec (.syncCandidate b) s = .next { s with siu := { s.siu with
        syncCount := s.siu.syncCount + 1, toNextStart := 188, silentTicks := 0 } }) ∧
    (s.siu.lock = .check → s.siu.toNextStart ≤ 1 → b = 0x47 → 2 ≤ s.siu.syncCount →
      ∃ t, exec (.syncCandidate b) s = .next t ∧
        t = { s with siu := t.siu, out := t.out, rpu := t.rpu, cmu := t.cmu } ∧
        t.siu = { s.siu with lock := .locked, syncCount := 3, badSyncs := 0, toNextStart := 0, lossFlag := false,
                             silentTicks := 0 } ∧
        t.out.sequence = s.out.sequence.filter OutPosition.notFill ∧
        reports (if s.siu.lossFlag then [.inputRegained] else []) s t) ∧
    (s.siu.lock = .locked → exec (.syncCandidate b) s = .next { s with siu := { s.siu with silentTicks := 0 } })) ∧
  (∀ s : State, s.streaming = true →
     (s.siu.lock = .check → 900 ≤ s.siu.silentTicks → exec .checkSilenceTimeout s = .next { s with siu :=
       { s.siu with lock := .hunt, syncCount := 0, toNextStart := 0 } }) ∧
     (s.siu.lock = .locked → 900 ≤ s.siu.silentTicks →
       exec .lockedSilenceTimeout s = .next (offer (.inputLost .silence) { s with siu := { s.siu with
         lock := .hunt, syncCount := 0, badSyncs := 0, toNextStart := 0, lossFlag := true, inputLostSeen := true
         fill := { elapsed := 0, created := 0, sinceLast := 0 } } })) ∧
     (s.siu.silentTicks < 900 →
       exec .checkSilenceTimeout s = .next s ∧ exec .lockedSilenceTimeout s = .next s)) ∧
  (∀ s : State, s.streaming = true →
     (s.siu.lock ≠ .locked → (s.siu.fill.created + 1) * 27000000 ≤ s.siu.fill.elapsed * s.settings.fillRate →
       exec .fillSlot s = .next (appendOut (.free .fill) { s with siu := { s.siu with fill :=
         { s.siu.fill with created := s.siu.fill.created + 1, sinceLast := 0 } } })) ∧
     (s.siu.lock = .locked ∨ s.siu.fill.elapsed * s.settings.fillRate < (s.siu.fill.created + 1) * 27000000 →
       exec .fillSlot s = .next s))

/-- PACKET_TAKEN: an error-free packet leaves, or leaves a free slot, as its class gives, behind everything already in the output
sequence; what a class counts is counted, and a CONTROL packet is handed to the Command Unit (R2, R9, R10).
PACKET_TAKEN: a packet with its transport error bit set goes by its class with the error counted, and reaches neither
the Scrambler, the Timebase nor the Command Unit (R10); a packet start that is not 0x47 is tolerated once and is an input
loss the second time (R2, R3). -/
def Obligations.PacketFate : Prop :=
  ((∀ (p : List (BitVec 8)) (s : State), arrives p s → errorBit p = false → noReference p s →
     exec (.packetTaken p) s = .next (decideFate p (synced s))) ∧
   (∀ (p : List (BitVec 8)) (s : State),
     (s.siu.classOf (pidOf p) = .pass → decideFate p s = appendOut (.packet p) s) ∧
     (s.siu.classOf (pidOf p) = .drop → decideFate p s = appendOut (.free .removed) s) ∧
     (s.siu.classOf (pidOf p) = .null → decideFate p s = appendOut (.free (.inputNull p)) s) ∧
     (s.siu.classOf (pidOf p) = .control → decideFate p s = appendOut (.free .removed) (intake p s)) ∧
     (s.siu.classOf (pidOf p) = .ownedReport ∨ s.siu.classOf (pidOf p) = .ownedGrant ∨
       (∃ m, s.siu.classOf (pidOf p) = .ownedWord m) →
       decideFate p s = appendOut (.free .removed) { s with rpu := { s.rpu with counters :=
         { s.rpu.counters with ownedCollisions := satInc s.rpu.counters.ownedCollisions } } }) ∧
     (∀ m, s.siu.classOf (pidOf p) = .service m →
       (scramblingField p ≠ 0 → decideFate p s = appendOut (.packet p) { s with rpu := { s.rpu with counters :=
         { s.rpu.counters with preScrambled := satInc s.rpu.counters.preScrambled } } }) ∧
       (scramblingField p = 0 → decideFate p s = appendOut (.packet (scramblerOutput s m p)) s))) ∧
   (∀ (pos : OutPosition) (s : State),
     (appendOut pos s).out.sequence = s.out.sequence ++ [pos] ∧ appendOut pos s = { s with out := (appendOut pos s).out })) ∧
  ((∀ (p : List (BitVec 8)) (s : State), arrives p s → errorBit p = true →
     ((s.siu.classOf (pidOf p) = .pass ∨ s.siu.classOf (pidOf p) = .null ∨ ∃ m, s.siu.classOf (pidOf p) = .service m) →
       exec (.packetTaken p) s = .next (appendOut (.packet p) (countError (synced s)))) ∧
     (¬(s.siu.classOf (pidOf p) = .pass ∨ s.siu.classOf (pidOf p) = .null ∨ ∃ m, s.siu.classOf (pidOf p) = .service m) →
       exec (.packetTaken p) s = .next (appendOut (.free .removed) (countError (synced s)))) ∧
     countError s = { s with rpu := { s.rpu with counters := { s.rpu.counters with
       transportErrors := satInc s.rpu.counters.transportErrors } } }) ∧
   (∀ (p : List (BitVec 8)) (s : State), s.streaming = true → s.siu.lock = .locked → p.length = 188 → byteAt p 0 ≠ 0x47 →
     (s.siu.badSyncs = 0 → exec (.packetTaken p) s = .next (appendOut (.free .badSync)
       { s with siu := { s.siu with badSyncs := 1, silentTicks := 0 } })) ∧
     (s.siu.badSyncs ≠ 0 → exec (.packetTaken p) s = .next (offer (.inputLost .badSync) { s with siu := { s.siu with
       lock := .hunt, syncCount := 0, badSyncs := 0, toNextStart := 0, lossFlag := true, inputLostSeen := true
       silentTicks := 0, fill := { elapsed := 0, created := 0, sinceLast := 0 } } }))))

/-- PACKET_TAKEN on a service identifier: the law of R14. The packet is forwarded in its place; its payload is scrambled under
the word of the phase in use, and its scrambling field says which, exactly when it arrived unscrambled, carries payload and
its slot is in LIVE, EXTENDED or ENDED; else it is forwarded as it arrived (R10, R14). -/
def Obligations.ServicePacketScrambledOnAir : Prop :=
  ∀ (p : List (BitVec 8)) (m : SlotId) (s : State), arrives p s → errorBit p = false → noReference p s →
    s.siu.classOf (pidOf p) = .service m →
    (scramblingField p ≠ 0 → exec (.packetTaken p) s = .next (appendOut (.packet p) (countPreScrambled (synced s)))) ∧
    (scramblingField p = 0 → (payloadOffset p = none ∨ (s.slot m).state.onAir = false) →
      exec (.packetTaken p) s = .next (appendOut (.packet p) (synced s))) ∧
    (∀ off r, scramblingField p = 0 → payloadOffset p = some off → s.record m = some r → (s.slot m).state.onAir = true →
      ∃ q, exec (.packetTaken p) s = .next (appendOut (.packet q) (synced s)) ∧ q.length = p.length ∧
        (∀ i, i < off → i ≠ 3 → byteAt q i = byteAt p i) ∧
        (byteAt q 3).toNat % 64 = (byteAt p 3).toNat % 64 ∧
        scramblingField q = (match r.phase with | .even => 2 | .odd => 3) ∧
        (∀ i, off ≤ i → i < p.length →
          byteAt q i = Config.scrambleByte
            (match r.phase with | .even => r.evenWord.bits | .odd => r.oddWord.bits) (p.drop off) (i - off)))

/-- PACKET_TAKEN on the Control PID: a body is queued only with its payload-start bit, a length that fits, the right check
word, a number above the last accepted one and room in the queue; what fails is counted where the rule says so, and a stale
number is reported (R156 to R158). In hold nothing is examined (R158). -/
def Obligations.CommandBodyIntake : Prop :=
  (∀ (p : List (BitVec 8)) (s : State), arrives p s → errorBit p = false → noReference p s →
    s.siu.classOf (pidOf p) = .control →
    exec (.packetTaken p) s = .next (appendOut (.free .removed) (intake p (synced s)))) ∧
  (∀ (p : List (BitVec 8)) (s : State), (s.running = false ∨ payloadStartBit p = false) → intake p s = s) ∧
  (∀ (p : List (BitVec 8)) (s : State) (len : Nat) (body : List (BitVec 8)) (number : BitVec 32),
    s.running = true → payloadStartBit p = true → len = numAt (payloadOf p) 0 2 → body = (payloadOf p).take len →
    number = BitVec.ofNat 32 (numAt body 2 4) →
    ((payloadOf p).length < 2 ∨ len < 21 ∨ (payloadOf p).length < len →
      intake p s = { s with rpu := { s.rpu with counters := { s.rpu.counters with
        checkFailures := satInc s.rpu.counters.checkFailures } } }) ∧
    (2 ≤ (payloadOf p).length → 21 ≤ len → len ≤ (payloadOf p).length →
      (Config.checkWord s.cmu.unitKey (body.take (len - 8)) ≠ BitVec.ofNat 64 (numAt body (len - 8) 8) →
        intake p s = { s with rpu := { s.rpu with counters := { s.rpu.counters with
          checkFailures := satInc s.rpu.counters.checkFailures } } }) ∧
      (Config.checkWord s.cmu.unitKey (body.take (len - 8)) = BitVec.ofNat 64 (numAt body (len - 8) 8) →
        (number ≤ s.cmu.lastAccepted →
          intake p s = offer (.result number (byteAt body 6) .stale .none .none []) { s with rpu := { s.rpu with counters :=
            { s.rpu.counters with staleCommands := satInc s.rpu.counters.staleCommands } } }) ∧
        (s.cmu.lastAccepted < number → s.cmu.queue.length < 8 →
          intake p s = { s with cmu := { s.cmu with
            queue := s.cmu.queue ++ [{ number := number, body := body }], lastAccepted := number } }) ∧
        (s.cmu.lastAccepted < number → 8 ≤ s.cmu.queue.length →
          intake p s = { s with rpu := { s.rpu with counters := { s.rpu.counters with
            discardedCommands := satInc s.rpu.counters.discardedCommands } } }))))

/-- A clock reference on the Clock PID, whatever the packet's class, is handed to the Timebase before the packet's fate is decided
(R10), and in hold it is not taken (R28): adopted in NO_TIME, adopted where it lies within 900 ticks of the prediction, with a
HOLDOVER LEFT report out of HOLDOVER, else weighed against the candidate, the third agreement being a jump (R20 to R22). What
adopts makes the reference stream time and is evaluated as an advance (R18, R37); what does not leaves stream time as it was.
That the adoption comes before the fate of its own packet is deduced (notes/assumptions/24.md), and that a HOLDOVER LEFT report is
stamped with the stream time after the adoption, and that no item falls between an adoption and its evaluation, is the model's
choice (notes/assumptions/49.md, 52.md). -/
def Obligations.ClockReferenceTaken : Prop :=
  (∀ (p : List (BitVec 8)) (ref : StreamTime) (s : State), arrives p s → errorBit p = false → clockBase p = some ref →
    pidOf p = s.settings.clockPid →
    (s.running = true → exec (.packetTaken p) s = .next (decideFate p (takeReference ref (synced s)))) ∧
    (s.running = false → exec (.packetTaken p) s = .next (decideFate p (synced s))) ∧
    (s.running = true → s.siu.classOf (pidOf p) = .pass → memoryWf s = true →
      exec (.packetTaken p) s = .next (appendOut (.packet p) (takeReference ref (synced s))))) ∧
  (∀ (ref : StreamTime) (s u : State),
    u = { s with tbu := { s.tbu with
      state := .tracking, adoption := some { value := ref, tick := s.tbu.tick }, candidate := none
      holdoverSince := some s.tbu.tick } } →
    ((takeReference ref s).now = some ref ∨ (takeReference ref s).now = s.now) ∧ u.now = some ref ∧
    (s.now = none → takeReference ref s = evaluateAll (offer (.timeAcquired ref) u)) ∧
    (∀ (predicted : StreamTime), s.now = some predicted →
      ((signedDistance predicted ref).natAbs ≤ 900 →
        (takeReference ref s).now = some ref ∧ (takeReference ref s).tbu = u.tbu ∧
        (s.tbu.state = .holdover → takeReference ref s =
          evaluateAll (offer (.holdoverLeft (signedDistance predicted ref)) u)) ∧
        (s.tbu.state ≠ .holdover → takeReference ref s = evaluateAll u)) ∧
      (900 < (signedDistance predicted ref).natAbs → s.tbu.candidate = none →
        takeReference ref s = { s with tbu := { s.tbu with
          candidate := some { value := ref, tick := s.tbu.tick, count := 1 }, holdoverSince := some s.tbu.tick } }) ∧
      (∀ c, 900 < (signedDistance predicted ref).natAbs → s.tbu.candidate = some c →
        (900 < (signedDistance (c.value + (s.tbu.tick - c.tick)) ref).natAbs →
          takeReference ref s = { s with tbu := { s.tbu with
            candidate := some { value := ref, tick := s.tbu.tick, count := 1 }, holdoverSince := some s.tbu.tick } }) ∧
        ((signedDistance (c.value + (s.tbu.tick - c.tick)) ref).natAbs ≤ 900 → c.count < 2 →
          takeReference ref s = { s with tbu := { s.tbu with
            candidate := some { value := ref, tick := s.tbu.tick, count := 2 }, holdoverSince := some s.tbu.tick } }) ∧
        ((signedDistance (c.value + (s.tbu.tick - c.tick)) ref).natAbs ≤ 900 → 2 ≤ c.count →
          takeReference ref s = evaluateAll (offer (.timeJump (signedDistance predicted ref) s.tbu.state) u)))))

/-! ## The output side -/

/-- FREE_SLOT with a Word Message due: the slot whose due was set first has its Word Message placed in the free slot, on its
Word PID with that identifier's counter, built from its records at that moment; its due is cleared and its timer runs on
(R13, R124, R146, R147). -/
def Obligations.FreeSlotWordMessage : Prop :=
  ∀ (m : SlotId) (rec : MatchRecord) (r : EpochRecord) (src : FreeSource) (rest : List OutPosition) (s : State),
    memoryWf s = true → atFree src rest s → firstDue m s → s.live m = some rec → s.record m = some r →
    ∃ t, exec .freeSlot s = .next t ∧
      fills (insertedPacket rec.wordPid (counterOf s rec.wordPid) (wordContent m rec r)) rest s t ∧
      counts rec.wordPid s t ∧
      t.wordTimer m = { s.wordTimer m with due := none } ∧ (∀ n, n ≠ m → t.wordTimer n = s.wordTimer n) ∧
      t = { s with siu := { s.siu with continuity := t.siu.continuity }, out := t.out
                   ina := { s.ina with words := t.ina.words } }

/-- FREE_SLOT with no Word Message due: a due Status Summary goes before any report packet, and a report packet before any
grant; a report packet takes from the head of the queue as many entries as fit, eight at most, and its emission is to be told
of the commands whose RESULTs it carries (R13, R146, R148, R149, R172, R181). The sizes of entries rest on
notes/assumptions/15.md, and that a STALE result is no command's RESULT there on notes/assumptions/19.md. -/
def Obligations.FreeSlotReportPid : Prop :=
  (∀ (src : FreeSource) (rest : List OutPosition) (s : State), memoryWf s = true → atFree src rest s → noWordDue s →
    (s.ina.statusDue = true → ∃ t, exec .freeSlot s = .next t ∧
      fills (insertedPacket s.settings.reportPid (counterOf s s.settings.reportPid) (summaryContent s)) rest s t ∧
      counts s.settings.reportPid s t ∧
      t = { s with siu := { s.siu with continuity := t.siu.continuity }, out := t.out
                   ina := { s.ina with statusDue := false } }) ∧
    (s.ina.statusDue = false → s.rpu.entries ≠ [] → ∃ t n, n = entriesThatFit 8 183 s.rpu.entries ∧
      exec .freeSlot s = .next t ∧
      carries (insertedPacket s.settings.reportPid (counterOf s s.settings.reportPid)
          (reportContent (s.rpu.entries.take n)))
        (.report ((s.rpu.entries.take n).filterMap fun e => e.body.resultOf)) rest s t ∧
      counts s.settings.reportPid s t ∧
      t = { s with siu := { s.siu with continuity := t.siu.continuity }, out := t.out
                   rpu := { s.rpu with entries := s.rpu.entries.drop n } })) ∧
  (∀ (l : List ReportEntry) (n : Nat), n = entriesThatFit 8 183 l →
    n ≤ 8 ∧ n ≤ l.length ∧ ((l.take n).map ReportEntry.size).sum ≤ 183 ∧
    (n < 8 → ∀ e, l[n]? = some e → 183 < ((l.take n).map ReportEntry.size).sum + e.size)) ∧
  (∀ (number : BitVec 32) (kind : BitVec 8) (res : CommandResult) (reason : RefusalReason) (detail : ResultDetail)
     (codes : List CodeValue), (ReportBody.result number kind res reason detail codes).resultOf =
       if res = .stale then none else some number)

/-- FREE_SLOT with no Word Message, summary or report to send, and a grant credit held or the pace lifted: the fresh packet
goes first until Fresh Run Limit fresh packets have run while a sweep packet was ready; then the ready sweep packet goes and
the run begins again; where the fresh build yields nothing the choice is made again (R136, R137, R146, R150, R152, R153).
FREE_SLOT where nothing else is to be sent: a null packet, the input's own bytes where a null packet made the slot; no
counter, credit or fresh run changes (R146, R153, R154). That no fresh packet is built in hold, and that rush
and flood lift the pace there no more, is deduced (notes/assumptions/23.md, 55.md). -/
def Obligations.FreeSlotGrantOrNull : Prop :=
  (∀ (src : FreeSource) (rest : List OutPosition) (s u : State), memoryWf s = true → atFree src rest s → onlyGrants s →
     s.paceLifted = true ∨ 0 < s.ina.credits → u = (freshBuild (afterTake rest s)).2.2 →
     (∀ p, s.gcr.ready = some p → (s.running = false ∨ s.gcr.fresh = [] ∨ s.settings.freshRunLimit ≤ s.ina.freshRun) →
       ∃ t, exec .freeSlot s = .next t ∧
         carries (insertedPacket s.settings.grantPid (counterOf s s.settings.grantPid) (grantContent p.entries))
           (.sweep p.entries p.passEnd) rest s t ∧
         counts s.settings.grantPid s t ∧
         t.ina = { s.ina with freshRun := 0, credits := if s.paceLifted then s.ina.credits else s.ina.credits - 1 } ∧
         t.gcr = (pack { s with gcr := { s.gcr with ready := none } }).gcr ∧
         t = { s with siu := { s.siu with continuity := t.siu.continuity }, out := t.out, ina := t.ina, gcr := t.gcr }) ∧
     (s.running = true → s.gcr.fresh ≠ [] → (s.gcr.ready = none ∨ s.ina.freshRun < s.settings.freshRunLimit) →
       (∀ es pairs, es = (freshBuild (afterTake rest s)).1 → pairs = (freshBuild (afterTake rest s)).2.1 → es ≠ [] →
         ∃ t, exec .freeSlot s = .next t ∧
           carries (insertedPacket s.settings.grantPid (counterOf u s.settings.grantPid) (grantContent es))
             (.fresh es pairs) rest s t ∧
           counts s.settings.grantPid u t ∧
           t.ina = { u.ina with
             freshRun := if s.ina.freshRun < s.settings.freshRunLimit then s.ina.freshRun + 1 else s.settings.freshRunLimit
             credits := if s.paceLifted then s.ina.credits else s.ina.credits - 1 } ∧
           t = { u with siu := { u.siu with continuity := t.siu.continuity }, out := t.out, ina := t.ina }) ∧
       ((freshBuild (afterTake rest s)).1 = [] →
         (∀ p, s.gcr.ready = some p → ∃ t, exec .freeSlot s = .next t ∧
           carries (insertedPacket s.settings.grantPid (counterOf u s.settings.grantPid) (grantContent p.entries))
             (.sweep p.entries p.passEnd) rest s t ∧
           counts s.settings.grantPid u t ∧
           t.ina = { u.ina with freshRun := 0, credits := if s.paceLifted then s.ina.credits else s.ina.credits - 1 } ∧
           t.gcr = (pack { u with gcr := { u.gcr with ready := none } }).gcr ∧
           t = { u with siu := { u.siu with continuity := t.siu.continuity }, out := t.out, ina := t.ina, gcr := t.gcr }) ∧
         (s.gcr.ready = none → ∃ t, exec .freeSlot s = .next t ∧ t = { u with out := t.out } ∧
           (∀ q, src = .inputNull q → fills q rest s t) ∧
           ((∀ q, src ≠ .inputNull q) → fills nullPacket rest s t))))) ∧
  (∀ (src : FreeSource) (rest : List OutPosition) (s : State), atFree src rest s → onlyGrants s →
     ((s.paceLifted = false ∧ s.ina.credits = 0) ∨ (s.gcr.ready = none ∧ (s.gcr.fresh = [] ∨ s.running = false))) →
     ∃ t, exec .freeSlot s = .next t ∧ t = { s with out := t.out } ∧
       (∀ q, src = .inputNull q → fills q rest s t) ∧
       ((∀ q, src ≠ .inputNull q) → fills ([0x47, 0x1F, 0xFF, 0x10] ++ List.replicate 184 0xFF) rest s t))

/-- The fresh build takes pairs from the head of the Fresh Queue until six entries stand in the packet, the next pair's entries do
not fit, or the queue is empty; a pair whose slot is not granting, or whose mask is 0, is used up without an entry; the
packet's entries are those of each pair taken, dual in a rollover, in the order of the pairs (R103, R106, R136, R137). -/
def Obligations.FreshBuildTakesPairsInOrder : Prop :=
  ∀ (s u : State) (es : List GrantEntry) (pairs : List FreshPair), s.gcr.building = [] → freshBuild s = (es, pairs, u) →
    (∃ v, FreshBuilds s.gcr.fresh s u.gcr.fresh pairs v ∧ es = v.gcr.building ∧
      u = { v with gcr := { v.gcr with fresh := u.gcr.fresh, building := [] } }) ∧
    es.length ≤ 6 ∧ (∃ n, u.gcr.fresh = s.gcr.fresh.drop n ∧ pairs.Sublist (s.gcr.fresh.take n)) ∧
    (∀ e ∈ es, ∃ p ∈ pairs, e.cohort = p.cohort ∧ e.slot = p.slot ∧ s.granting p.slot = true ∧ e.mask ≠ 0) ∧
    (∀ p ∈ pairs, ∃ e ∈ es, e.cohort = p.cohort ∧ e.slot = p.slot) ∧
    u.gcr = { s.gcr with fresh := u.gcr.fresh }

/-- The bytes of the packets the part builds: the header of section 12.1, the grant message and its entries and the Word
Message of section 12.5, the Status Summary of section 12.6 whole, and the report packet of section 12.6: its entry count, each
entry's 9-byte head where the entries before it end, its content, and the content of a RESULT and of a MATCH STATE entry, whose
end mark carries 0 where there is none (R46, R181). The widths in a MATCH STATE entry are the model's
(notes/assumptions/15.md). A depth or length above its field's width appears modulo that width. -/
def Obligations.InsertedPacketLayout : Prop :=
  (∀ (pid : Nat) (c : BitVec 4) (content : List (BitVec 8)) (q : List (BitVec 8)), pid < 8192 → content.length ≤ 184 →
    q = insertedPacket pid c content →
    q.length = 188 ∧ byteAt q 0 = 0x47 ∧ pidOf q = pid ∧ errorBit q = false ∧ payloadStartBit q = true ∧
    scramblingField q = 0 ∧ payloadOffset q = some 4 ∧ (byteAt q 3).toNat % 16 = c.toNat ∧
    bytesAt q 4 content.length = content ∧ ∀ i, 4 + content.length ≤ i → i < 188 → byteAt q i = 0xFF) ∧
  (∀ (es : List GrantEntry) (k : Nat) (e : GrantEntry), es.length < 256 → es[k]? = some e → e.cohort < 65536 →
    (grantContent es).length = 1 + 29 * es.length ∧ numAt (grantContent es) 0 1 = es.length ∧
    numAt (grantContent es) (1 + 29 * k) 2 = e.cohort ∧ numAt (grantContent es) (3 + 29 * k) 1 = e.slot.val ∧
    numAt (grantContent es) (4 + 29 * k) 4 = e.matchId.toNat ∧ numAt (grantContent es) (8 + 29 * k) 2 = e.epoch.toNat ∧
    numAt (grantContent es) (10 + 29 * k) 4 = e.mask.toNat ∧ numAt (grantContent es) (14 + 29 * k) 16 = e.wrapped.toNat) ∧
  (∀ (m : SlotId) (rec : MatchRecord) (r : EpochRecord) (l : List (BitVec 8)), l = wordContent m rec r →
    l.length = 40 ∧ numAt l 0 1 = m.val ∧ numAt l 1 4 = rec.matchId.toNat ∧ numAt l 5 2 = r.epoch.toNat ∧
    numAt l 7 1 = (match r.phase with | .even => 0 | .odd => 1) ∧
    numAt l 8 16 = (Config.wrapWord r.currentKey.bits rec.matchId r.epoch r.evenWord.bits).toNat ∧
    numAt l 24 16 = (Config.wrapWord r.currentKey.bits rec.matchId r.epoch r.oddWord.bits).toNat) ∧
  (∀ (s : State) (l : List (BitVec 8)), l = summaryContent s →
    l.length = 94 ∧ numAt l 0 1 = 0 ∧ numAt l 1 5 = s.stamp.toNat ∧
    numAt l 6 1 = s.tbu.state.code ∧ numAt l 7 1 = s.siu.lock.code ∧ numAt l 8 1 = s.sst.store.code ∧
    (∀ m : SlotId, numAt l (9 + 4 * m.val) 1 = (s.slot m).state.code ∧
      (s.record m = none → numAt l (10 + 4 * m.val) 3 = 0) ∧
      ∀ r, s.record m = some r →
        numAt l (10 + 4 * m.val) 2 = r.epoch.toNat ∧ numAt l (12 + 4 * m.val) 1 = r.rollover.code) ∧
    numAt l 73 2 = s.gcr.fresh.length % 65536 ∧ numAt l 75 2 = s.gcr.pointer % 65536 ∧
    numAt l 77 1 = s.rpu.places % 256 ∧ numAt l 78 1 = (if s.rpu.fault.held then 1 else 0) ∧
    numAt l 79 1 = (if s.tbu.holdoverSeen then 1 else 0) + (if s.siu.inputLostSeen then 2 else 0) ∧
    numAt l 80 2 = s.rpu.counters.checkFailures % 65536 ∧ numAt l 82 2 = s.rpu.counters.staleCommands % 65536 ∧
    numAt l 84 2 = s.rpu.counters.discardedCommands % 65536 ∧ numAt l 86 2 = s.rpu.counters.droppedReports % 65536 ∧
    numAt l 88 2 = s.rpu.counters.ownedCollisions % 65536 ∧ numAt l 90 2 = s.rpu.counters.preScrambled % 65536 ∧
    numAt l 92 2 = s.rpu.counters.transportErrors % 65536) ∧
  (∀ (es : List ReportEntry) (k off : Nat) (e : ReportEntry) (l : List (BitVec 8)), l = reportContent es → es[k]? = some e →
    off = 1 + ((es.take k).map ReportEntry.size).sum →
    e.size = 9 + e.body.content.length ∧ l.length = 1 + (es.map ReportEntry.size).sum ∧ numAt l 0 1 = es.length % 256 ∧
    numAt l off 1 = e.body.codes.1 ∧ numAt l (off + 1) 1 = e.body.codes.2 ∧ numAt l (off + 2) 2 = e.size % 65536 ∧
    numAt l (off + 4) 5 = e.stamp.toNat ∧ bytesAt l (off + 9) e.body.content.length = e.body.content) ∧
  (∀ (number : BitVec 32) (kind : BitVec 8) (res : CommandResult) (reason : RefusalReason) (detail : ResultDetail)
     (codes : List CodeValue) (l : List (BitVec 8)), l = (ReportBody.result number kind res reason detail codes).content →
    (ReportBody.result number kind res reason detail codes).codes = (1, 0) ∧ l.length = 9 + 3 * codes.length ∧
    numAt l 0 4 = number.toNat ∧ byteAt l 4 = kind ∧ numAt l 5 1 = res.code ∧ numAt l 6 1 = reason.code ∧
    byteAt l 7 = detail.byte ∧ numAt l 8 1 = codes.length % 256 ∧
    ∀ k c, codes[k]? = some c → numAt l (9 + 3 * k) 1 = c.code.code ∧ numAt l (10 + 3 * k) 2 = c.value % 65536) ∧
  (∀ (m : SlotId) (id : BitVec 32) (left entered : SlotState) (cause : StateCause) (mark : Option StreamTime)
     (l : List (BitVec 8)), l = (ReportBody.matchState m id left entered cause mark).content →
    (ReportBody.matchState m id left entered cause mark).codes = (3, 0) ∧ l.length = 13 ∧
    numAt l 0 1 = m.val ∧ numAt l 1 4 = id.toNat ∧ numAt l 5 1 = left.code ∧ numAt l 6 1 = entered.code ∧
    numAt l 7 1 = cause.code ∧ (∀ t, mark = some t → numAt l 8 5 = t.toNat) ∧
    (mark = none → bytesAt l 8 5 = List.replicate 5 0))

/-- GRANT_MESSAGE_EMITTED: the output goes on behind the packet sent; every record that still carries an entry's match id and
epoch is marked issued (R110); a sweep packet with the pass-end mark is the wrap event, which takes one owed pass from every
SWEEPING record, the last making it SWITCHING (R119, R131, R133); a fresh packet's pairs are counted down and queued again
where emissions are left (R138).
REPORT_PACKET_EMITTED: the output goes on behind the packet sent, and the progress record of a command whose RESULT it
carried becomes NONE, its other fields kept (R166, R172; notes/assumptions/6.md, 18.md). -/
def Obligations.Emissions : Prop :=
  (∀ (y : Sending) (s : State), s.streaming = true → s.out.sending = some y →
     (∀ es passEnd, y.emission = .sweep es passEnd → ∃ t l, exec .grantMessageEmitted s = .next t ∧
       t.out.sequence = s.out.sequence ∧ t.out.sent = s.out.sent ++ y.bytes :: l ∧
       t = { s with out := t.out, epc := t.epc, gcr := { s.gcr with closing := s.gcr.closing && !passEnd } } ∧
       ∀ m, (s.record m = none → t.record m = none) ∧ ∀ r, s.record m = some r → ∃ r', t.record m = some r' ∧
         r' = { r with issued := r'.issued, passesLeft := r'.passesLeft, rollover := r'.rollover } ∧
         (r'.issued = true ↔ r.issued = true ∨ (s.granting m = true ∧ ∃ e ∈ es, e.slot = m ∧ e.epoch = r.epoch ∧
           ∃ rec, s.live m = some rec ∧ rec.matchId = e.matchId)) ∧
         (passEnd = false ∨ r.rollover ≠ .sweeping → r'.passesLeft = r.passesLeft ∧ r'.rollover = r.rollover) ∧
         (passEnd = true → r.rollover = .sweeping → r'.passesLeft = r.passesLeft - 1 ∧
           r'.rollover = if r.passesLeft ≤ 1 then .switching else .sweeping)) ∧
     (∀ es pairs, y.emission = .fresh es pairs → ∃ t l, exec .grantMessageEmitted s = .next t ∧
       t.out.sequence = s.out.sequence ∧ t.out.sent = s.out.sent ++ y.bytes :: l ∧
       t = { s with out := t.out, epc := t.epc, gcr := { s.gcr with fresh := pairs.foldl requeuePair s.gcr.fresh } } ∧
       ∀ m, (s.record m = none → t.record m = none) ∧ ∀ r, s.record m = some r → ∃ r', t.record m = some r' ∧
         r' = { r with issued := r'.issued } ∧
         (r'.issued = true ↔ r.issued = true ∨ (s.granting m = true ∧ ∃ e ∈ es, e.slot = m ∧ e.epoch = r.epoch ∧
           ∃ rec, s.live m = some rec ∧ rec.matchId = e.matchId)))) ∧
  (∀ (y : Sending) (ns : List (BitVec 32)) (s : State), s.streaming = true → s.out.sending = some y →
     y.emission = .report ns → ∃ t l, exec .reportPacketEmitted s = .next t ∧
       t.out.sequence = s.out.sequence ∧ t.out.sent = s.out.sent ++ y.bytes :: l ∧
       t = { s with out := t.out, cmu := { s.cmu with progress := { s.cmu.progress with
         endMethod := if s.cmu.progress.number ∈ ns then .none else s.cmu.progress.endMethod } } })

/-- A revocation notice (R112, R113): ignored outside the granting states; STEADY becomes PENDING, cause NOTICE, where the issued
flag is set or the carousel holds a built entry of the slot with its epoch and the live record's match id; PENDING stays; in
SWEEPING and SWITCHING redo is set. What the carousel holds are the build buffer, the ready sweep packet and the grant packet in
transmission (R134), and the fresh packet being built (R112). A fresh notice restores a queued pair in its place, or joins the tail
where there is room (R135). A pair that has been emitted is counted down, and joins the tail where emissions are left, it is
not queued and there is room (R138). -/
def Obligations.NoticesAndPairs : Prop :=
  (∀ (m : SlotId) (s : State),
    (s.granting m = false → revoke m s = s) ∧
    (∀ r, s.granting m = true → s.record m = some r → ∃ t, revoke m s = t ∧ t = { s with epc := t.epc } ∧
      (∀ n, n ≠ m → t.epochSlot n = s.epochSlot n) ∧ (t.epochSlot m).ageTicks = (s.epochSlot m).ageTicks ∧
      t.record m = some (r.notice (r.issued || s.carouselHolds m r.epoch)))) ∧
  (∀ (r : EpochRecord) (exposed : Bool),
    (r.rollover = .steady → r.notice true = { r with rollover := .pending, cause := some .notice } ∧ r.notice false = r) ∧
    (r.rollover = .pending → r.notice exposed = r) ∧
    (r.rollover = .sweeping ∨ r.rollover = .switching → r.notice exposed = { r with redo := true })) ∧
  (∀ (m : SlotId) (epoch : BitVec 16) (s : State), s.carouselHolds m epoch = true ↔
    ∃ e rec, s.live m = some rec ∧ e.slot = m ∧ e.epoch = epoch ∧ e.matchId = rec.matchId ∧
      (e ∈ s.gcr.buffer ∨ (∃ p, s.gcr.ready = some p ∧ e ∈ p.entries) ∨ e ∈ s.gcr.building ∨
       ∃ y, s.out.sending = some y ∧ ((∃ es passEnd, y.emission = .sweep es passEnd ∧ e ∈ es) ∨
         ∃ es pairs, y.emission = .fresh es pairs ∧ e ∈ es))) ∧
  (∀ (c : Nat) (m : SlotId) (n : Nat) (l : List FreshPair),
    (∀ a p b, l = a ++ p :: b → p.cohort = c → p.slot = m → (∀ q ∈ a, q.cohort = c → q.slot ≠ m) →
      noticePair c m n l = a ++ { p with left := n } :: b) ∧
    ((∀ q ∈ l, q.cohort = c → q.slot ≠ m) →
      noticePair c m n l = if l.length < 1024 then l ++ [{ cohort := c, slot := m, left := n }] else l)) ∧
  (∀ (c : Nat) (m : SlotId) (s : State), freshNotice c m s =
    { s with gcr := { s.gcr with fresh := noticePair c m s.settings.freshRepeats s.gcr.fresh } }) ∧
  (∀ (p : FreshPair) (l : List FreshPair),
    (p.left ≤ 1 → requeuePair l p = l) ∧
    ((∃ q ∈ l, q.cohort = p.cohort ∧ q.slot = p.slot) → requeuePair l p = l) ∧
    (1 < p.left → (∀ q ∈ l, q.cohort = p.cohort → q.slot ≠ p.slot) →
      requeuePair l p = if l.length < 1024 then l ++ [{ p with left := p.left - 1 }] else l))

/-! ## The sweep and the grant decision -/

/-- SWEEP_STEP: the builder takes the cohort at the pointer, appends its entries to the build buffer, and packs six of them
where it can; the last active cohort closes the pass, which is the wrap event at once where nothing is left to send
(R119, R129 to R132), even while the pass's last full packet is still in transmission (notes/assumptions/45.md). A sweep
build reads the cohort's row once and gives its entries for slots 0 to 15 in slot order (R98, R130). -/
def Obligations.SweepStepBuilds : Prop :=
  (∀ (s u : State) (c : Nat) (row : Option RowImage), rowForBuild c (slotList.any s.granting) s = (row, u) →
    sweepBuild c s = (slotList.flatMap (entriesFor false u c row), u)) ∧
  slotList.map (fun m => m.val) = List.range 16 ∧
  ∀ (s u : State) (es : List GrantEntry), s.mayStep = true → sweepBuild s.gcr.pointer s = (es, u) →
    (s.gcr.pointer + 1 < s.settings.activeCohorts → s.gcr.buffer.length + es.length < 6 →
      exec .sweepStep s = .next { u with gcr := { s.gcr with
        pointer := s.gcr.pointer + 1, buffer := s.gcr.buffer ++ es } }) ∧
    (s.gcr.pointer + 1 < s.settings.activeCohorts → 6 ≤ s.gcr.buffer.length + es.length →
      exec .sweepStep s = .next { u with gcr := { s.gcr with
        pointer := s.gcr.pointer + 1, buffer := (s.gcr.buffer ++ es).drop 6
        ready := some { entries := (s.gcr.buffer ++ es).take 6, passEnd := false } } }) ∧
    (s.gcr.pointer + 1 = s.settings.activeCohorts → s.gcr.buffer ++ es ≠ [] →
      exec .sweepStep s = .next { u with gcr := { s.gcr with
        pointer := 0, closing := true, buffer := (s.gcr.buffer ++ es).drop 6
        ready := some { entries := (s.gcr.buffer ++ es).take 6
                        passEnd := decide (s.gcr.buffer.length + es.length ≤ 6) } } }) ∧
    (s.gcr.pointer + 1 = s.settings.activeCohorts → s.gcr.buffer = [] → es = [] → ∃ t, exec .sweepStep s = .next t ∧
      t = { u with epc := t.epc, gcr := { s.gcr with pointer := 0 } } ∧
      ∀ m, t.record m = (u.record m).map EpochRecord.passEvent) ∧
    (s.settings.activeCohorts ≤ s.gcr.pointer → s.gcr.buffer = [] → ∃ t, exec .sweepStep s = .next t ∧
      t = { s with epc := t.epc, gcr := { s.gcr with pointer := 0 } } ∧
      ∀ m, t.record m = (s.record m).map EpochRecord.passEvent) ∧
    (s.settings.activeCohorts ≤ s.gcr.pointer → s.gcr.buffer ≠ [] →
      exec .sweepStep s = .next { s with gcr := { s.gcr with
        pointer := 0, closing := true, buffer := [], ready := some { entries := s.gcr.buffer, passEnd := true } } })

/-- The grant decision for cohort c and a slot: member i is granted where the readable row holds its purchase, does not
suspend it and its region is not blacked out; where the row cannot be used, as the fail policy says; and always where its
seat is on the House Seat List; a slot that is not granting or an empty mask gives no entry (R97 to R103).
The keys an entry carries: outside a rollover the current epoch and key; in a rollover the next epoch and the pending key,
and in a fresh build both, the current one first; each key wrapped under the root key for its cohort and match
(R104 to R107). At E = 65,535 the pair stands in the order of R106's table (notes/assumptions/44.md). -/
def Obligations.GrantDecision : Prop :=
  (∀ (s : State) (c : Nat) (m : SlotId) (rec : MatchRecord) (r : EpochRecord) (dual : Bool),
     (s.granting m = false → ∀ row, entriesFor dual s c row m = []) ∧
     (s.granting m = true → s.live m = some rec → s.record m = some r →
       (∀ row, ∀ e ∈ entriesFor dual s c row m, e.cohort = c ∧ e.slot = m ∧ e.matchId = rec.matchId ∧
         e.mask = baseMask row rec m ||| houseMask s c ∧ e.mask ≠ 0) ∧
       (∀ row, baseMask row rec m ||| houseMask s c ≠ 0 → entriesFor dual s c row m ≠ [])) ∧
     (∀ (row : RowImage) (i : Fin 32), (baseMask (some row) rec m ||| houseMask s c).getLsbD i.val = true ↔
       (row.holds m i = true ∧ row.suspended i = false ∧ rec.blackout.getLsbD (row.region.get i).toNat = false) ∨
         32 * c + i.val ∈ s.sst.house) ∧
     (∀ i : Fin 32, (baseMask none rec m ||| houseMask s c).getLsbD i.val = true ↔
       rec.failPolicy = .openPolicy ∨ 32 * c + i.val ∈ s.sst.house) ∧
     (s.sst.store = .clearing ∨ s.sst.store = .failed → ∀ wanted, rowForBuild c wanted s = (none, s)) ∧
     (storeOpen s → rowForBuild c true s = readRow c s ∧ rowForBuild c false s = (none, s)) ∧
     (storeOpen s → rowReadable c s → rowForBuild c true s = (some (rowAt s c).content, s)) ∧
     (isPoisoned s .row c = true → (rowForBuild c true s).1 = none)) ∧
  (∀ (s : State) (c : Nat) (m : SlotId) (rec : MatchRecord) (r : EpochRecord) (row : Option RowImage) (mask : MemberMask),
     s.granting m = true → s.live m = some rec → s.record m = some r → mask = baseMask row rec m ||| houseMask s c →
     mask ≠ 0 →
     (r.rollover.rolling = false → ∀ dual, entriesFor dual s c row m =
       [{ cohort := c, slot := m, matchId := rec.matchId, epoch := r.epoch, mask := mask
          wrapped := Config.wrapKey s.cmu.rootKey c rec.matchId r.currentKey.bits }]) ∧
     (∀ k, r.rollover.rolling = true → r.pendingKey = some k →
       entriesFor false s c row m =
         [{ cohort := c, slot := m, matchId := rec.matchId, epoch := r.epoch + 1, mask := mask
            wrapped := Config.wrapKey s.cmu.rootKey c rec.matchId k.bits }] ∧
       entriesFor true s c row m =
         [{ cohort := c, slot := m, matchId := rec.matchId, epoch := r.epoch, mask := mask
            wrapped := Config.wrapKey s.cmu.rootKey c rec.matchId r.currentKey.bits },
          { cohort := c, slot := m, matchId := rec.matchId, epoch := r.epoch + 1, mask := mask
            wrapped := Config.wrapKey s.cmu.rootKey c rec.matchId k.bits }]))

/-! ## Time -/

/-- STREAM_TIME_ADVANCE: each running slot makes the transitions whose times are reached, and none whose time is not; the slots
are taken in order, each making one transition after another while its next time is reached (R18, R30, R37). A transition
queues its MATCH STATE report; entry into PREVIEW or LIVE from ON_SALE starts the Word Messages, entry into ENDED sets the end
mark, and entry into CLOSED releases the slot's identifiers, drops its rollover and stops its Word Messages
(R7, R37, R43, R46, R123, R125, R126). That MATCH STATE stands before ROLLOVER ABANDONED there is deduced
(notes/assumptions/28.md). -/
def Obligations.StreamTimeTransitions : Prop :=
  (∀ (m : SlotId) (rec : MatchRecord) (now : StreamTime) (s : State), s.running = true → s.now = some now →
    s.live m = some rec → ∃ t, exec .streamTimeAdvance s = .next t ∧ t.now = some now ∧
      ((s.slot m).state = .scheduled → reached rec.saleOpen now = false → t.slot m = s.slot m) ∧
      ((s.slot m).state = .scheduled → reached rec.saleOpen now = true → reached rec.showStart now = false →
        t.slot m = { s.slot m with state := .onSale }) ∧
      ((s.slot m).state = .onSale → reached rec.showStart now = false → t.slot m = s.slot m) ∧
      ((s.slot m).state = .preview → reached (rec.showStart + seconds rec.previewLen) now = false → t.slot m = s.slot m) ∧
      ((s.slot m).state = .live → reached (rec.showStart + seconds rec.scheduledLen) now = false → t.slot m = s.slot m) ∧
      ((s.slot m).state = .extended →
        reached (rec.showStart + seconds rec.scheduledLen + seconds rec.overrunMax) now = false → t.slot m = s.slot m) ∧
      ((s.slot m).state = .onSale → reached rec.showStart now = true → 0 < rec.previewLen →
        reached (rec.showStart + seconds rec.previewLen) now = false →
        t.slot m = { s.slot m with state := .preview } ∧
        t.wordTimer m = { due := (s.wordTimer m).due.or (some s.tbu.tick), timer := some 0 }) ∧
      ((s.slot m).state = .onSale → reached rec.showStart now = true → rec.previewLen = 0 →
        reached (rec.showStart + seconds rec.scheduledLen) now = false →
        t.slot m = { s.slot m with state := .live } ∧
        t.wordTimer m = { due := (s.wordTimer m).due.or (some s.tbu.tick), timer := some 0 }) ∧
      ((s.slot m).state = .preview → reached (rec.showStart + seconds rec.previewLen) now = true →
        reached (rec.showStart + seconds rec.scheduledLen) now = false → t.slot m = { s.slot m with state := .live }) ∧
      ((s.slot m).state = .live → reached (rec.showStart + seconds rec.scheduledLen) now = true →
        reached (rec.showStart + seconds rec.scheduledLen + seconds rec.overrunMax) now = false →
        t.slot m = { s.slot m with state := .extended }) ∧
      ((s.slot m).state = .extended →
        reached (rec.showStart + seconds rec.scheduledLen + seconds rec.overrunMax) now = true →
        reached (rec.showStart + seconds rec.scheduledLen + seconds rec.overrunMax + seconds rec.endHold) now = false →
        t.slot m = { s.slot m with
          state := .ended, endMark := some (rec.showStart + seconds rec.scheduledLen + seconds rec.overrunMax) }) ∧
      (∀ mark, (s.slot m).state = .ended → (s.slot m).endMark = some mark →
        (reached (mark + seconds rec.endHold) now = false → t.slot m = s.slot m) ∧
        (reached (mark + seconds rec.endHold) now = true →
          t.slot m = { s.slot m with state := .closed } ∧ t.wordTimer m = { due := none, timer := none } ∧
          ∀ r, s.record m = some r → ∃ r', t.record m = some r' ∧ r'.rollover = .steady ∧ r'.epoch = r.epoch ∧
            r'.currentKey = r.currentKey))) ∧
  (∀ s : State, s.running = true → s.now.isSome = true →
    exec .streamTimeAdvance s = .next (slotList.foldl (fun t m => evaluateSlot m 6 t) s)) ∧
  (∀ (m : SlotId) (n : Nat) (s : State),
    (advanceOnce m s = none → evaluateSlot m (n + 1) s = s) ∧
    (∀ u, advanceOnce m s = some u → evaluateSlot m (n + 1) s = evaluateSlot m n u)) ∧
  (∀ (m : SlotId) (rec : MatchRecord) (now : StreamTime) (s : State), s.now = some now → s.live m = some rec →
    ((s.slot m).state = .scheduled → advanceOnce m s = if reached rec.saleOpen now then
      some (offer (stateReport s m .onSale .time none) (s.setSlot m { s.slot m with state := .onSale })) else none) ∧
    (∀ dest, (s.slot m).state = .onSale → (dest = if rec.previewLen = 0 then .live else .preview) →
      advanceOnce m s = if reached rec.showStart now then
        some ((offer (stateReport s m dest .time none) (s.setSlot m { s.slot m with state := dest })).setWordTimer m
          { due := (s.wordTimer m).due.or (some s.tbu.tick), timer := some 0 }) else none) ∧
    ((s.slot m).state = .preview → advanceOnce m s = if reached (rec.showStart + seconds rec.previewLen) now then
      some (offer (stateReport s m .live .time none) (s.setSlot m { s.slot m with state := .live })) else none) ∧
    ((s.slot m).state = .live → advanceOnce m s = if reached (rec.showStart + seconds rec.scheduledLen) now then
      some (offer (stateReport s m .extended .time none) (s.setSlot m { s.slot m with state := .extended })) else none) ∧
    (∀ mark, (s.slot m).state = .extended → mark = rec.showStart + seconds rec.scheduledLen + seconds rec.overrunMax →
      advanceOnce m s = if reached mark now then
        some (offer (stateReport s m .ended .time (some mark))
          (s.setSlot m { s.slot m with state := .ended, endMark := some mark })) else none) ∧
    (∀ mark, (s.slot m).state = .ended → (s.slot m).endMark = some mark →
      (reached (mark + seconds rec.endHold) now = false → advanceOnce m s = none) ∧
      (reached (mark + seconds rec.endHold) now = true → ∃ u, advanceOnce m s = some u ∧
        u = { s with siu := { s.siu with pidMap := u.siu.pidMap, continuity := u.siu.continuity }, mtb := u.mtb
                     epc := u.epc, ina := { s.ina with words := u.ina.words }, rpu := u.rpu } ∧
        u.slot m = { s.slot m with state := .closed } ∧ (∀ k, k ≠ m → u.slot k = s.slot k ∧ u.epochSlot k = s.epochSlot k) ∧
        u.wordTimer m = { due := none, timer := none } ∧ (∀ k, k ≠ m → u.wordTimer k = s.wordTimer k) ∧
        reports (stateReport s m .closed .time none :: dropReports s m) s u ∧
        (memoryWf s = true → releases rec s u) ∧
        ∀ r, s.record m = some r → u.record m = some (if r.rollover = .steady then r else
          { r with rollover := .steady, pendingKey := none, redo := false, passesLeft := 0, sweepAge := 0
                   cause := none }))) ∧
    ((s.slot m).state = .empty ∨ (s.slot m).state = .abandoned ∨ (s.slot m).state = .closed ∨ (s.slot m).state = .wiping →
      advanceOnce m s = none))

/-- STREAM_TIME_ADVANCE: the evaluation goes on in every slot until no further transition's time is reached; slots move
forward along the lifecycle only, live records stay, and nothing but the slots, the PID Map and its counters, epoch records,
Word Messages and the Report Unit changes (R18, R37). -/
def Obligations.StreamTimeAdvanceSettles : Prop :=
  ∀ s : State, s.running = true →
    (s.now = none → exec .streamTimeAdvance s = .next s) ∧
    (s.now.isSome = true → ∃ t, exec .streamTimeAdvance s = .next t ∧
      t = { s with siu := { s.siu with pidMap := t.siu.pidMap, continuity := t.siu.continuity }, mtb := t.mtb, epc := t.epc
                   ina := { s.ina with words := t.ina.words }, rpu := t.rpu } ∧
      ∀ m, advanceOnce m t = none ∧ t.live m = s.live m ∧ (t.slot m).staged = (s.slot m).staged ∧
        ((t.slot m).state = (s.slot m).state ∨ (s.slot m).state.rank < (t.slot m).state.rank) ∧
        ((t.slot m).state ≠ .closed → t.record m = s.record m))

/-- HOLDOVER_ENTERED, CANDIDATE_TIMEOUT, SWEEP_AGE_INCREMENT, WORD_MESSAGE_TIMER_EXPIRY, STATUS_TIMER_EXPIRY and
PACE_TIMER_EXPIRY take their effect at their timer's length, and a row sent before it changes nothing, which is the model's
choice (notes/assumptions/1.md) (R23, R120, R125, R147, R148, R150). -/
def Obligations.TimersExpire : Prop :=
  ∀ s : State, s.running = true →
    (∀ a, s.tbu.holdoverSince = some a →
      (s.tbu.state = .tracking → s.settings.holdoverLimit * 90 ≤ (s.tbu.tick - a).toNat →
        exec .holdoverEntered s = .next (offer .holdoverEntered { s with tbu := { s.tbu with
          state := .holdover, candidate := none, holdoverSince := none, holdoverSeen := true } })) ∧
      (s.tbu.state = .holdover → s.settings.holdoverLimit * 90 ≤ (s.tbu.tick - a).toNat →
        exec .candidateTimeout s = .next { s with tbu := { s.tbu with candidate := none, holdoverSince := none } }) ∧
      ((s.tbu.tick - a).toNat < s.settings.holdoverLimit * 90 →
        exec .holdoverEntered s = .next s ∧ exec .candidateTimeout s = .next s)) ∧
    (∀ m r, s.record m = some r →
      (r.rollover.rolling = true → 90000 ≤ (s.epochSlot m).ageTicks → ∃ t, exec (.sweepAgeIncrement m) s = .next t ∧
        t = { s with epc := t.epc } ∧ t.epochSlot m =
          { record := some { r with sweepAge := if r.sweepAge < 65535 then r.sweepAge + 1 else r.sweepAge }
            ageTicks := 0 } ∧
        ∀ n, n ≠ m → t.epochSlot n = s.epochSlot n) ∧
      (r.rollover.rolling = false ∨ (s.epochSlot m).ageTicks < 90000 → exec (.sweepAgeIncrement m) s = .next s)) ∧
    (∀ m n, (s.wordTimer m).timer = some n →
      (s.settings.wordInterval * 90 ≤ n → ∃ t, exec (.wordMessageTimerExpiry m) s = .next t ∧
        t = { s with ina := { s.ina with words := t.ina.words } } ∧
        t.wordTimer m = { due := some ((s.wordTimer m).due.getD s.tbu.tick), timer := some 0 } ∧
        ∀ k, k ≠ m → t.wordTimer k = s.wordTimer k) ∧
      (n < s.settings.wordInterval * 90 → exec (.wordMessageTimerExpiry m) s = .next s)) ∧
    (s.settings.statusInterval * 90 ≤ s.ina.statusTimer →
      exec .statusTimerExpiry s = .next { s with ina := { s.ina with statusDue := true, statusTimer := 0 } }) ∧
    (s.ina.statusTimer < s.settings.statusInterval * 90 → exec .statusTimerExpiry s = .next s) ∧
    (∀ n, s.ina.paceTimer = some n →
      (s.settings.grantPace * 9 ≤ n → exec .paceTimerExpiry s = .next { s with ina := { s.ina with
        paceTimer := some 0, credits := if s.ina.credits < 2 then s.ina.credits + 1 else s.ina.credits } }) ∧
      (n < s.settings.grantPace * 9 → exec .paceTimerExpiry s = .next s))

/-- CRYPTO_PERIOD_BOUNDARY at a granting slot: a SWITCHING slot, or a SWEEPING one at its deadline, takes its pending key as
the key of the next epoch, and owes a rollover again where redo was set; a PENDING slot, or a STEADY one whose lifetime has
expired, begins to sweep under a new key with the passes of R117; every slot that does not switch ages by one period
(R26, R27, R109, R114 to R117). Each switch and each start is reported, slot by slot (R126). Drawn keys are known by their number (notes/assumptions/11.md). -/
def Obligations.BoundaryRollsEpochs : Prop :=
  ∀ s : State, s.running = true → s.tbu.periodLength ≤ s.tbu.periodTimer →
    ∃ t, exec .cryptoPeriodBoundary s = .next t ∧
      t = { s with tbu := { s.tbu with periodTimer := 0, periodLength := s.settings.cryptoPeriod * 90000 }
                   epc := t.epc, cmu := t.cmu, rpu := t.rpu, draws := t.draws } ∧ s.draws ≤ t.draws ∧
      reports (slotList.flatMap (boundaryReports s)) s t ∧
      ∀ (m : SlotId) (passes : Nat),
        (passes = if s.passStart then s.settings.rolloverPasses else s.settings.rolloverPasses + 1) →
        (s.granting m = false → t.epochSlot m = s.epochSlot m) ∧
        (∀ r, s.granting m = true → s.record m = some r → ∃ r', t.record m = some r' ∧
          (r.rollover = .switching ∨ (r.rollover = .sweeping ∧ s.settings.rolloverDeadline ≤ r.sweepAge) →
            r'.epoch = r.epoch + 1 ∧ r'.currentKey = r.pendingKey.getD r.currentKey ∧ r'.issued = true ∧
            r'.epochAge = 0 ∧ r'.sweepAge = 0 ∧ r'.redo = false ∧
            (r.redo = false → r'.rollover = .steady ∧ r'.pendingKey = none ∧ r'.passesLeft = 0) ∧
            (r.redo = true → r'.rollover = .sweeping ∧ r'.passesLeft = passes ∧
              ∃ k, r'.pendingKey = some k ∧ s.draws ≤ k.serial ∧ k.serial < t.draws)) ∧
          (r.rollover ≠ .switching → (r.rollover = .sweeping → r.sweepAge < s.settings.rolloverDeadline) →
            r'.epoch = r.epoch ∧ r'.currentKey = r.currentKey ∧ r'.issued = r.issued ∧ r'.redo = r.redo ∧
            r'.epochAge = (if r.epochAge < 65535 then r.epochAge + 1 else r.epochAge) ∧
            (r.rollover = .pending ∨ (r.rollover = .steady ∧ s.settings.epochLifetime ≠ 0 ∧
                s.settings.epochLifetime * 60 ≤ r'.epochAge * s.settings.cryptoPeriod) →
              r'.rollover = .sweeping ∧ r'.passesLeft = passes ∧ r'.sweepAge = 0 ∧
              ∃ k, r'.pendingKey = some k ∧ s.draws ≤ k.serial ∧ k.serial < t.draws) ∧
            (r.rollover = .sweeping ∨ (r.rollover = .steady ∧ (s.settings.epochLifetime = 0 ∨
                r'.epochAge * s.settings.cryptoPeriod < s.settings.epochLifetime * 60)) →
              r'.rollover = r.rollover ∧ r'.passesLeft = r.passesLeft ∧ r'.sweepAge = r.sweepAge ∧
              r'.pendingKey = r.pendingKey)))

/-- CRYPTO_PERIOD_BOUNDARY in PREVIEW to ENDED: the phase flips, the word of the phase just left is replaced by a new draw and
the word now in use stays; in other granting states phase and words stay (R109, R111). Before the boundary nothing changes,
which is the model's choice (notes/assumptions/1.md); drawn words are known by their number (11.md). -/
def Obligations.BoundaryChangesWords : Prop :=
  ∀ s : State, s.running = true →
    (s.tbu.periodTimer < s.tbu.periodLength → exec .cryptoPeriodBoundary s = .next s) ∧
    (s.tbu.periodLength ≤ s.tbu.periodTimer → ∃ t, exec .cryptoPeriodBoundary s = .next t ∧
      ∀ (m : SlotId) (r : EpochRecord), s.granting m = true → s.record m = some r → ∃ r', t.record m = some r' ∧
        ((s.slot m).state.words = true → r.phase = .even →
          r'.phase = .odd ∧ r'.oddWord = r.oddWord ∧ s.draws ≤ r'.evenWord.serial ∧ r'.evenWord.serial < t.draws) ∧
        ((s.slot m).state.words = true → r.phase = .odd →
          r'.phase = .even ∧ r'.evenWord = r.evenWord ∧ s.draws ≤ r'.oddWord.serial ∧ r'.oddWord.serial < t.draws) ∧
        ((s.slot m).state.words = false →
          r'.phase = r.phase ∧ r'.evenWord = r.evenWord ∧ r'.oddWord = r.oddWord))

/-! ## The Store Walker -/

/-- WALK_START: with the store READY and the Walker free, the walk at the head of the Walk Queue begins at cohort 0; with another
store state, a walk under way, an empty queue or in hold nothing begins (R64 to R66, R74).
CLEAR_WALK_STEP: the 33 items of the cohort become items of zero content with their digests, which the signature takes
in; nothing is read, so nothing is poisoned; the last step makes the store READY, reports it and sends the OPEN slots a notice,
and all else stays (R56, R60, R61). That a row out of its condition answers the same state is the model's choice
(notes/assumptions/1.md). -/
def Obligations.WalkStartAndClearStep : Prop :=
  (∀ (q : QueuedWalk) (rest : List QueuedWalk) (s : State), s.running = true → s.sst.walkQueue = q :: rest →
     s.sst.walk = none → s.sst.store = .ready → ∃ w, exec .walkStart s =
         .next { s with sst := { s.sst with walk := some w, walkQueue := rest } } ∧
       w.cohort = 0 ∧ w.rowSkips = 0 ∧ w.seatSkips = 0 ∧
       w.kind = if q.refund then .refund q.slot else .wipe q.slot) ∧
  (∀ s : State, s.running = false ∨ s.sst.walkQueue = [] ∨ s.sst.walk.isSome = true ∨ s.sst.store ≠ .ready →
     exec .walkStart s = .next s) ∧
  (∀ s : State, s.running = false ∨ s.sst.store ≠ .clearing ∨ (∀ c, ¬walksAt .clear c s) →
     exec .clearWalkStep s = .next s) ∧
  (∀ (c : Nat) (s : State), memoryWf s = true → s.running = true → s.sst.store = .clearing → walksAt .clear c s →
     ∃ t, exec .clearWalkStep s = .next t ∧
       (rowAt t c).content = zeroRow ∧ (rowAt t c).digest = rowDigest zeroRow ∧ (∀ d, d ≠ c → rowAt t d = rowAt s d) ∧
       (∀ n, n / 32 = c → (recordAt t n).content = zeroRecord ∧ (recordAt t n).digest = recordDigest zeroRecord) ∧
       (∀ n, n / 32 ≠ c → recordAt t n = recordAt s n) ∧
       t.sst.signature = s.sst.signature ^^^ rowDigest zeroRow ∧ t.sst.poison = s.sst.poison ∧
       (c < 32767 → walksAt .clear (c + 1) t ∧
         t = { s with sst := { s.sst with
           rows := t.sst.rows, records := t.sst.records, signature := t.sst.signature, walk := t.sst.walk } }) ∧
       (32767 ≤ c → t = { s with
           sst := { s.sst with rows := t.sst.rows, records := t.sst.records, signature := t.sst.signature
                               walk := none, store := .ready }
           epc := t.epc, rpu := (offer .storeReady s).rpu, cmu := (offer .storeReady s).cmu } ∧
         ∀ m, (t.epochSlot m).ageTicks = (s.epochSlot m).ageTicks ∧ t.record m = (s.record m).map fun r =>
           if s.granting m = true ∧ ∃ rec, s.live m = some rec ∧ rec.failPolicy = .openPolicy then
             r.notice (r.issued || s.carouselHolds m r.epoch) else r))

/-- VERIFY_WALK_STEP reads the cohort's row and its 32 records, and the accumulator takes their stored digests in, those of listed
and of failing items too (R51, R62). The items that fail without being listed join the Poison List in the order of the reads while
it has room, each with its fault, a row with the notices of R53 (R52, R53), and the walk goes on; the last step makes the store
READY where accumulator and signature agree, each slot in WIPING or ABANDONED without a waiting walk getting its WIPE or REFUND
at the tail, in slot order, and ends LOST into CLEARING where they do not with its reports, the cut slots of R70 settled and
their identifiers released (R7, R43, R46, R60, R61, R64, R70). The first item that finds the list full ends the verify LOST at
once, its overflow handed to the Report Unit (R52, R64); that the rest of the step is then not made, and that the fault stands
behind what it brings about, is deduced (notes/assumptions/29.md, 28.md), and that the row changes nothing out of its condition
is the model's choice (notes/assumptions/1.md). -/
def Obligations.VerifyWalkStepScans : Prop :=
  (∀ s : State, s.running = false ∨ s.sst.store ≠ .verifying ∨ (∀ c, ¬walksAt .verify c s) →
    exec .verifyWalkStep s = .next s) ∧
  ∀ (c : Nat) (l : List PoisonEntry) (s : State), s.running = true → s.sst.store = .verifying → walksAt .verify c s →
    l = failing s (cohortItems c) →
    (∀ (acc : BitVec 32) (u : State), l.length ≤ s.poisonRoom → u = checkFaults l s →
      acc = s.sst.accumulator ^^^ (rowAt s c).digest ^^^ recordDigests s c →
      (c < 32767 → ∃ t, exec .verifyWalkStep s = .next t ∧ walksAt .verify (c + 1) t ∧
        t = { u with sst := { s.sst with accumulator := acc, poison := s.sst.poison ++ l, walk := t.sst.walk }
                     epc := t.epc } ∧
        ∀ m, noticed (stepNotifies s l) s t m) ∧
      (32767 ≤ c → acc = s.sst.signature → ∃ t, exec .verifyWalkStep s = .next t ∧
        t = { u with
          sst := { s.sst with accumulator := acc, poison := s.sst.poison ++ l, store := .ready, walk := none
                              walkQueue := t.sst.walkQueue }
          epc := t.epc, rpu := (offer .storeReady u).rpu, cmu := (offer .storeReady u).cmu } ∧
        (∀ m, noticed (stepNotifies s l) s t m) ∧
        t.sst.walkQueue = s.sst.walkQueue ++ (slotList.filter fun m => !walkQueued s m &&
            (decide ((s.slot m).state = .wiping) || decide ((s.slot m).state = .abandoned))).map fun m =>
          { refund := decide ((s.slot m).state = .abandoned), slot := m }) ∧
      (32767 ≤ c → acc ≠ s.sst.signature → ∃ t, exec .verifyWalkStep s = .next t ∧ lostAndCleared s t ∧
        reports (.storeLostMismatch acc s.sst.signature :: slotList.flatMap (cutReports s) ++ [.storeClearing]) u t)) ∧
    (∀ (e : PoisonEntry) (u v : State), l[s.poisonRoom]? = some e → u = checkFaults (l.take s.poisonRoom) s →
      v = offerAll (.storeLostOverflow e.index s.sst.signature :: slotList.flatMap (cutReports s) ++ [.storeClearing]) u →
      ∃ t, exec .verifyWalkStep s = .next t ∧ lostAndCleared s t ∧
        t.rpu = (takeFault .poisonOverflow e.index e.kind v).rpu ∧ t.cmu = (takeFault .poisonOverflow e.index e.kind v).cmu)

/-- WIPE_WALK_STEP: the slot's purchase mask and the paid values become 0 where they can be read; a row or record that is listed
or fails its digest is left as it is and counted as a skip, and all else that is stored stays (R51, R56, R68). What fails without
being listed joins the Poison List while it has room, each with its fault, and the first that does not makes the store FAILED, its
step going on to its end (R52, R53, R65). The last step reports the skips and makes the slot EMPTY with its report (R42, R46); that
it does so also where it has made the store FAILED is deduced (notes/assumptions/53.md), and that the row changes nothing out of
its condition is the model's choice (notes/assumptions/1.md). -/
def Obligations.WipeWalkStepWipes : Prop :=
  (∀ s : State, s.running = false ∨ s.sst.store ≠ .ready ∨ (∀ m c, ¬walksAt (.wipe m) c s) →
    exec .wipeWalkStep s = .next s) ∧
  ∀ (m : SlotId) (c rows seats : Nat) (w : Walk) (l : List PoisonEntry) (s u : State), memoryWf s = true →
    s.running = true → s.sst.store = .ready → s.sst.walk = some w → w.kind = .wipe m → w.cohort = c →
    w.seatSkips ≤ 65535 → l = failing s (cohortItems c) → u = readyFaults l s →
    (rows = if rowReadable c s then w.rowSkips else satInc w.rowSkips) →
    seats = min 65535 (w.seatSkips + (memberList.filter fun i => !decide (recordReadable (seatOf c i) s)).length) →
    ∃ t, exec .wipeWalkStep s = .next t ∧
      (¬rowReadable c s → rowAt t c = rowAt s c) ∧
      (rowReadable c s → (rowAt t c).content = (rowAt s c).content.setPurchase m 0 ∧
        (rowAt t c).digest = rowDigest (rowAt t c).content) ∧ (∀ d, d ≠ c → rowAt t d = rowAt s d) ∧
      (∀ i, ¬recordReadable (seatOf c i) s → recordAt t (seatOf c i) = recordAt s (seatOf c i)) ∧
      (∀ i, recordReadable (seatOf c i) s →
        (recordAt t (seatOf c i)).content = (recordAt s (seatOf c i)).content.setPaid m 0 ∧
        (recordAt t (seatOf c i)).digest = recordDigest (recordAt t (seatOf c i)).content) ∧
      (∀ n, n / 32 ≠ c → recordAt t n = recordAt s n) ∧
      t.sst.signature = s.sst.signature ^^^ (rowAt s c).digest ^^^ (rowAt t c).digest ^^^ recordDigests s c ^^^
        recordDigests t c ∧
      t.sst = { s.sst with rows := t.sst.rows, records := t.sst.records, signature := t.sst.signature
                           walk := t.sst.walk, poison := s.sst.poison ++ l.take s.poisonRoom
                           store := if l.length ≤ s.poisonRoom then .ready else .failed } ∧
      (c < 32767 → t.sst.walk = some { w with cohort := c + 1, rowSkips := rows, seatSkips := seats } ∧
        t = { u with sst := t.sst, epc := t.epc } ∧ ∀ k, noticed (stepNotifies s l) s t k) ∧
      (32767 ≤ c → t.sst.walk = none ∧ t = { u with mtb := t.mtb, epc := t.epc, sst := t.sst, rpu := t.rpu, cmu := t.cmu } ∧
        reports [.wipeDone m rows seats, stateReport s m .empty .walkEnd none] u t ∧
        t.slot m = { s.slot m with state := .empty, live := none, endMark := none } ∧ t.record m = none ∧
        ∀ k, k ≠ m → t.slot k = s.slot k ∧ noticed (stepNotifies s l) s t k)

/-- REFUND_WALK_STEP. With the row listed, or failing its digest, the whole step is skipped and one row skip is counted. With it
readable, every member that holds the slot and whose record can be read has what it paid added to its credit by the
credit-addition rule, its paid value set to 0 and its purchase bit cleared; a holder whose record is listed or fails its digest
keeps both and counts as a seat skip; the others keep their records and are not read (R41, R51, R56, R69, R85, R91). What fails
without being listed joins the Poison List while it has room, each with its fault, and the first that does not makes the store
FAILED, its step going on to its end (R52, R53, R65). The last step reports the skips, closes the slot with its report and
releases its identifiers (R7, R41, R43, R46); that it does so also where it has made the store FAILED is deduced
(notes/assumptions/53.md), and that the row changes nothing out of its condition is the model's choice
(notes/assumptions/1.md). -/
def Obligations.RefundWalkStepRefunds : Prop :=
  (∀ s : State, s.running = false ∨ s.sst.store ≠ .ready ∨ (∀ m c, ¬walksAt (.refund m) c s) →
    exec .refundWalkStep s = .next s) ∧
  ∀ (m : SlotId) (c rows seats : Nat) (w : Walk) (row : RowImage) (l : List PoisonEntry) (s u : State), memoryWf s = true →
    s.running = true → s.sst.store = .ready → s.sst.walk = some w → w.kind = .refund m → w.cohort = c →
    w.seatSkips ≤ 65535 → row = (rowAt s c).content →
    l = failing s (if rowReadable c s then (memberList.filter (row.holds m)).map fun i => ⟨.seat, seatOf c i⟩
                   else [⟨.row, c⟩]) →
    u = readyFaults l s → (rows = if rowReadable c s then w.rowSkips else satInc w.rowSkips) →
    (seats = if rowReadable c s then min 65535 (w.seatSkips +
      (memberList.filter fun i => row.holds m i && !decide (recordReadable (seatOf c i) s)).length) else w.seatSkips) →
    ∃ t, exec .refundWalkStep s = .next t ∧
      (¬rowReadable c s → t.sst.rows = s.sst.rows ∧ t.sst.records = s.sst.records ∧ t.sst.signature = s.sst.signature) ∧
      (rowReadable c s → ∃ mask, (rowAt t c).content = row.setPurchase m mask ∧
        (∀ i : Fin 32, mask.getLsbD i.val = true ↔ row.holds m i = true ∧ ¬recordReadable (seatOf c i) s) ∧
        (rowAt t c).digest = rowDigest (rowAt t c).content ∧ (∀ d, d ≠ c → rowAt t d = rowAt s d) ∧
        (∀ i : Fin 32, row.holds m i = true → recordReadable (seatOf c i) s → recordAt t (seatOf c i) =
          { content := (recordAt s (seatOf c i)).content.refunded s.settings.creditCap m
            digest := recordDigest ((recordAt s (seatOf c i)).content.refunded s.settings.creditCap m) }) ∧
        (∀ i : Fin 32, row.holds m i = false ∨ ¬recordReadable (seatOf c i) s →
          recordAt t (seatOf c i) = recordAt s (seatOf c i)) ∧
        (∀ n, n / 32 ≠ c → recordAt t n = recordAt s n) ∧
        t.sst.signature = s.sst.signature ^^^ (rowAt s c).digest ^^^ (rowAt t c).digest ^^^ recordDigests s c ^^^
          recordDigests t c) ∧
      t.sst = { s.sst with rows := t.sst.rows, records := t.sst.records, signature := t.sst.signature
                           walk := t.sst.walk, poison := s.sst.poison ++ l.take s.poisonRoom
                           store := if l.length ≤ s.poisonRoom then .ready else .failed } ∧
      (c < 32767 → t.sst.walk = some { w with cohort := c + 1, rowSkips := rows, seatSkips := seats } ∧
        t = { u with sst := t.sst, epc := t.epc } ∧ ∀ k, noticed (stepNotifies s l) s t k) ∧
      (32767 ≤ c → t.sst.walk = none ∧ t = { u with siu := t.siu, mtb := t.mtb, epc := t.epc, sst := t.sst, ina := t.ina
                                                    rpu := t.rpu, cmu := t.cmu } ∧
        t.slot m = { s.slot m with state := .closed } ∧
        (∀ k, k ≠ m → t.slot k = s.slot k ∧ t.wordTimer k = s.wordTimer k ∧ noticed (stepNotifies s l) s t k) ∧
        t.wordTimer m = { due := none, timer := none } ∧ (∀ rec, s.live m = some rec → releases rec s t) ∧
        ((s.slot m).state = .abandoned → t.epochSlot m = s.epochSlot m ∧
          reports [.refundDone m rows seats, stateReport s m .closed .walkEnd none] u t))

/-! ## Commands -/

/-- COMMAND_START: with the Command Unit idle and a place of the Report Queue free, the head command leaves the queue and one
place is reserved (R159); an undefined kind is BAD_KIND, a wrong item count or length BAD_LENGTH, a guard out of range
REFUSED BAD_FIELD, a false guard SKIPPED, and each ends the command with nothing applied; otherwise the command goes on to
its units with its progress record NOT_STARTED (R160, R166). The kinds, their item counts and lengths, their units, the fields
of an item and the guard's failing field are those of the tables (section 10.5, sections 12.2 to 12.4, R161, R180). The unit
count 0 of an undefined kind, the mask read from a body of the wrong length, when a command without units ends, which guard
field is named, and that the row changes nothing at another time are the model's (notes/assumptions/1.md, 20.md, 21.md,
48.md). -/
def Obligations.CommandStartJudges : Prop :=
  (∀ (q : QueuedCommand) (rest : List QueuedCommand) (s u : State) (kind count : Nat),
    s.cmu.queue = q :: rest → kind = numAt q.body 6 1 → count = numAt q.body 12 1 →
    u = { s with cmu := { s.cmu with queue := rest }, rpu := { s.rpu with reserved := true } } →
    (s.running = false ∨ s.cmu.executing.isSome = true ∨ 64 ≤ s.rpu.places → exec .commandStart s = .next s) ∧
    (s.running = true → s.cmu.executing = none → s.rpu.places < 64 →
      (itemForm kind = none →
        exec .commandStart s = .next (endCommand (startOf q 0 []) 0 .badKind .none .none [] u)) ∧
      (∀ f todo, itemForm kind = some f → todo = unitsOf kind count (q.body.drop 13) →
        (count < f.lo ∨ f.hi < count ∨ numAt q.body 0 2 ≠ 21 + f.once + f.each * count →
          exec .commandStart s =
            .next (endCommand (startOf q (unitCountOf kind count (itemBytes q.body)) []) 0 .badLength .none .none [] u)) ∧
        (f.lo ≤ count → count ≤ f.hi → numAt q.body 0 2 = 21 + f.once + f.each * count →
          (∀ g, guardFault (numAt q.body 7 1) (numAt q.body 8 1) (numAt q.body 9 2) = some g → exec .commandStart s =
            .next (endCommand (startOf q todo.length []) 0 .refused .badField (.field g) [] u)) ∧
          (guardFault (numAt q.body 7 1) (numAt q.body 8 1) (numAt q.body 9 2) = none →
            (guardTrue s (numAt q.body 7 1) (numAt q.body 8 1) (numAt q.body 9 2) = false → exec .commandStart s =
              .next (endCommand (startOf q todo.length []) 0 .skipped .none .none [] u)) ∧
            (guardTrue s (numAt q.body 7 1) (numAt q.body 8 1) (numAt q.body 9 2) = true → todo ≠ [] →
              exec .commandStart s = .next { u with cmu := { u.cmu with
                executing := some { number := q.number, kind := byteAt q.body 6
                                    quiet := decide ((byteAt q.body 11).toNat % 2 = 1)
                                    unitCount := todo.length, todo := todo, codes := [] }
                progress := { number := q.number, kind := byteAt q.body 6, unitCount := todo.length, unitsApplied := 0
                              endMethod := .notStarted } } }) ∧
            (guardTrue s (numAt q.body 7 1) (numAt q.body 8 1) (numAt q.body 9 2) = true → todo = [] →
              exec .commandStart s = .next (endCommand (startOf q 0 []) 0 .taken .none .none [] u)))))) ∧
    (∀ (slot : SlotId) (value : Nat),
      guardTrue s 0 slot.val value = true ∧
      (guardTrue s 1 slot.val value = true ↔ value / 2 ^ (s.slot slot).state.code % 2 = 1) ∧
      (guardTrue s 2 slot.val value = true ↔ ∃ r, s.record slot = some r ∧ r.epoch.toNat = value))) ∧
  (∀ slot value,
    (∀ kind, 2 < kind → guardFault kind slot value = some .guardKind) ∧ guardFault 0 slot value = none ∧
    (15 < slot → guardFault 1 slot value = some .guardSlot ∧ guardFault 2 slot value = some .guardSlot) ∧
    (slot ≤ 15 → guardFault 2 slot value = none ∧
      guardFault 1 slot value = if 1024 ≤ value then some .guardValue else none)) ∧
  (∀ kind, (kind = 0 ∨ 31 < kind → itemForm kind = none)) ∧
  (∀ e ∈ [(1, 1, 1, 0, 80), (2, 1, 1, 0, 2), (3, 1, 1, 0, 1), (4, 1, 1, 0, 1), (5, 1, 1, 0, 1), (6, 1, 1, 0, 1),
      (7, 1, 32, 2, 1), (8, 1, 1, 0, 1), (9, 1, 24, 0, 5), (10, 1, 24, 0, 4), (11, 1, 24, 0, 4), (12, 1, 24, 0, 3),
      (13, 1, 24, 0, 3), (14, 1, 24, 0, 4), (15, 1, 24, 0, 5), (16, 1, 24, 0, 3), (17, 1, 1, 0, 102), (18, 1, 4, 0, 38),
      (19, 1, 1, 0, 3), (20, 0, 0, 0, 0), (21, 0, 0, 0, 0), (22, 1, 1, 0, 3), (23, 1, 1, 0, 3), (24, 0, 0, 0, 0),
      (25, 1, 16, 0, 3), (26, 1, 16, 0, 5), (27, 0, 0, 0, 0), (28, 1, 1, 0, 32), (29, 0, 0, 0, 0), (30, 0, 0, 0, 0),
      (31, 0, 0, 0, 0)],
    itemForm e.1 = some { lo := e.2.1, hi := e.2.2.1, once := e.2.2.2.1, each := e.2.2.2.2 }) ∧
  (∀ (count : Nat) (l : List (BitVec 8)),
    unitsOf 1 count l = [.defineMatch (numAt l 0 1) (matchImageOf (l.drop 1))] ∧
    unitsOf 2 count l = (slotList.filter fun m => decide (numAt l 0 2 / 2 ^ m.val % 2 = 1)).map .commitSchedule ∧
    unitsOf 3 count l = [.readMatch (numAt l 0 1)] ∧ unitsOf 4 count l = [.finalWhistle (numAt l 0 1)] ∧
    unitsOf 5 count l = [.abandonMatch (numAt l 0 1)] ∧ unitsOf 6 count l = [.clearSlot (numAt l 0 1)] ∧
    unitsOf 7 count l = [.setBlackout (numAt l 0 1) (numAt l 1 1) (bytesAt l 2 count)] ∧
    unitsOf 8 count l = [.forceRollover (numAt l 0 1)] ∧
    unitsOf 17 count l = [.loadCohortRow (numAt l 0 2) (rowImageOf (l.drop 2))] ∧
    unitsOf 19 count l = [.querySeat (numAt l 0 3)] ∧ unitsOf 20 count l = [.readPoisonList] ∧
    unitsOf 21 count l = [.clearStore] ∧ unitsOf 22 count l = [.addHouseSeat (numAt l 0 3)] ∧
    unitsOf 23 count l = [.removeHouseSeat (numAt l 0 3)] ∧ unitsOf 24 count l = [.readHouseList] ∧
    unitsOf 27 count l = [.readSettings] ∧ unitsOf 28 count l = [.setRootKey (BitVec.ofNat 256 (numAt l 0 32))] ∧
    unitsOf 29 count l = [.releaseFault] ∧ unitsOf 30 count l = [.clearStatusMarks] ∧ unitsOf 31 count l = [.restart] ∧
    (∃ pairs, unitsOf 26 count l = [.setSettings pairs] ∧ pairs.length = count ∧
      (5 * count ≤ l.length → ∀ k, k < count → pairs[k]? = some (numAt l (5 * k) 1, numAt l (5 * k + 1) 4))) ∧
    (∀ kind, kind ∈ [9, 10, 11, 12, 13, 14, 15, 16, 18, 25] → (unitsOf kind count l).length = count) ∧
    (∀ k, k < count →
      (5 * count ≤ l.length → (unitsOf 9 count l)[k]? =
          some (.purchase (numAt l (5 * k) 3) (numAt l (5 * k + 3) 1) (numAt l (5 * k + 4) 1)) ∧
        (unitsOf 15 count l)[k]? = some (.topUpCredit (numAt l (5 * k) 3) (numAt l (5 * k + 3) 2))) ∧
      (4 * count ≤ l.length → (unitsOf 10 count l)[k]? = some (.refund (numAt l (4 * k) 3) (numAt l (4 * k + 3) 1)) ∧
        (unitsOf 11 count l)[k]? = some (.withdraw (numAt l (4 * k) 3) (numAt l (4 * k + 3) 1)) ∧
        (unitsOf 14 count l)[k]? = some (.setRegion (numAt l (4 * k) 3) (byteAt l (4 * k + 3)))) ∧
      (3 * count ≤ l.length → (unitsOf 12 count l)[k]? = some (.suspend (numAt l (3 * k) 3)) ∧
        (unitsOf 13 count l)[k]? = some (.resume (numAt l (3 * k) 3)) ∧
        (unitsOf 16 count l)[k]? = some (.clearSeatMarks (numAt l (3 * k) 3)) ∧
        (unitsOf 25 count l)[k]? = some (.setPidClass (numAt l (3 * k) 2) (numAt l (3 * k + 2) 1))) ∧
      (38 * count ≤ l.length → (unitsOf 18 count l)[k]? =
        some (.loadSeatRecords (numAt l (38 * k) 3) (recordImageOf (bytesAt l (38 * k + 3) 35)))))) ∧
  (∀ (kind count : Nat) (l : List (BitVec 8)),
    unitCountOf kind count l =
      if kind = 2 then (unitsOf 2 count l).length
      else if kind ∈ [9, 10, 11, 12, 13, 14, 15, 16, 18, 25] then count else 1) ∧
  (∀ body : List (BitVec 8), itemBytes body = (body.drop 13).take (body.length - 21)) ∧
  (∀ (l : List (BitVec 8)) (i : MatchImage), 79 ≤ l.length → i = matchImageOf l →
    i.matchId.toNat = numAt l 0 4 ∧ i.pidCount = numAt l 4 1 ∧ (∀ k : Fin 4, i.pids.get k = numAt l (5 + 2 * k.val) 2) ∧
    i.wordPid = numAt l 13 2 ∧ i.saleOpen = numAt l 15 5 ∧ i.earlyClose = numAt l 20 5 ∧ i.showStart = numAt l 25 5 ∧
    i.previewLen = numAt l 30 2 ∧ i.scheduledLen = numAt l 32 2 ∧ i.lateCutoff = numAt l 34 2 ∧
    i.overrunMax = numAt l 36 2 ∧ i.endHold = numAt l 38 2 ∧ i.earlyPrice = numAt l 40 2 ∧
    i.standardPrice = numAt l 42 2 ∧ i.lateFloor = numAt l 44 2 ∧ i.failPolicy = numAt l 46 1 ∧
    ∀ g : BitVec 8, i.blackout.getLsbD g.toNat = (byteAt l (47 + g.toNat / 8)).getLsbD (g.toNat % 8)) ∧
  (∀ l : List (BitVec 8),
    (∀ i : Fin 32, (rowImageOf l).region.get i = byteAt l i.val) ∧
    (∀ m : SlotId, ((rowImageOf l).purchase.get m).toNat = numAt l (32 + 4 * m.val) 4) ∧
    (rowImageOf l).suspend.toNat = numAt l 96 4 ∧ (recordImageOf l).credit.toNat = numAt l 0 2 ∧
    (∀ m : SlotId, ((recordImageOf l).paid.get m).toNat = numAt l (2 + 2 * m.val) 2) ∧
    (recordImageOf l).sat = byteAt l 34)

/-- A unit of a command applied per item: its code joins the RESULT, the progress record counts it and becomes PREFIX_SAFE, or
PREFIX_UNSAFE for TOP UP CREDIT, and after the last unit the command ends TAKEN with every code; the RESULT takes the reserved
place, or is suppressed where the quiet bit is set and every code is DONE, and the record is COMPLETE or NONE
(R161, R162, R166, R170).
A command ends, applied whole or judged at its start, with its RESULT in the reserved place and its record COMPLETE, or
suppressed with its record NONE where the quiet bit is set, the result is TAKEN, every code is DONE and it is no reading
command; a READBACK is offered after the RESULT, part by part (R162, R166, R172). That a record that becomes NONE keeps its other
fields, that the parts of a READBACK are numbered from 1, and that a command applied per item ends TAKEN also where every item
was refused, are the model's choice (notes/assumptions/18.md, 16.md, 51.md). -/
def Obligations.UnitsAreCounted : Prop :=
  (∀ (x : Executing) (c : CodeValue) (s : State),
    (x.todo.tail ≠ [] → endItem x c s = { s with cmu := { s.cmu with
      executing := some { x with todo := x.todo.tail, codes := x.codes ++ [c] }
      progress := { s.cmu.progress with
        unitsApplied := s.cmu.progress.unitsApplied + 1
        endMethod := if x.kind = 15 then .prefixUnsafe else .prefixSafe } } }) ∧
    (x.todo.tail = [] →
      (x.quiet = true ∧ (∀ d ∈ x.codes ++ [c], d.code = .done) ∧ readingKind x.kind = false →
        endItem x c s = { s with
          rpu := { s.rpu with reserved := false }
          cmu := { s.cmu with
            executing := none
            progress := { number := x.number, kind := x.kind, unitCount := x.unitCount, unitsApplied := x.unitCount
                          endMethod := .none } } }) ∧
      (x.quiet = false ∨ (∃ d ∈ x.codes ++ [c], d.code ≠ .done) ∨ readingKind x.kind = true →
        endItem x c s = { s with
          rpu := { s.rpu with
            reserved := false
            entries := s.rpu.entries ++
              [{ stamp := s.stamp, body := .result x.number x.kind .taken .none .none (x.codes ++ [c]) }] }
          cmu := { s.cmu with
            executing := none
            progress := { number := x.number, kind := x.kind, unitCount := x.unitCount, unitsApplied := x.unitCount
                          endMethod := .complete } } }))) ∧
  (∀ (x : Executing) (n : Nat) (res : CommandResult) (reason : RefusalReason) (detail : ResultDetail)
     (codes : List CodeValue) (s : State),
    (x.quiet = true ∧ res = .taken ∧ (∀ d ∈ codes, d.code = .done) ∧ readingKind x.kind = false →
      endCommand x n res reason detail codes s = { s with
        rpu := { s.rpu with reserved := false }
        cmu := { s.cmu with
          executing := none
          progress := { number := x.number, kind := x.kind, unitCount := x.unitCount, unitsApplied := n
                        endMethod := .none } } }) ∧
    (x.quiet = false ∨ res ≠ .taken ∨ (∃ d ∈ codes, d.code ≠ .done) ∨ readingKind x.kind = true →
      endCommand x n res reason detail codes s = { s with
        rpu := { s.rpu with
          reserved := false
          entries := s.rpu.entries ++
            [{ stamp := s.stamp, body := .result x.number x.kind res reason detail codes }] }
        cmu := { s.cmu with
          executing := none
          progress := { number := x.number, kind := x.kind, unitCount := x.unitCount, unitsApplied := n
                        endMethod := .complete } } })) ∧
  (∀ kind : BitVec 8, readingKind kind = true ↔ kind = 3 ∨ kind = 19 ∨ kind = 20 ∨ kind = 24 ∨ kind = 27) ∧
  (∀ (x : Executing) (o : WholeOutcome) (s : State),
    (o.readback = none → endWhole x o s = endCommand x x.unitCount o.res o.reason o.detail o.codes s) ∧
    (∀ data, o.readback = some data → endWhole x o s =
      offerAll ((readbackParts data).zipIdx.map fun p =>
          .readback x.number (p.2 + 1) (readbackParts data).length p.1)
        (endCommand x x.unitCount o.res o.reason o.detail o.codes s)))

/-- DEFINE_MATCH: a record that passes every check of R32 replaces the slot's staged record, field by field as the image gives it,
and changes nothing else; a slot above 15 or the first field that fails, the checks taken in R32's order, is a BAD_FIELD refusal
(R31, R32, R180). Where one check finds several fields the first in record order is named, which is the model's choice
(notes/assumptions/41.md). -/
def Obligations.DefineMatchStages : Prop :=
  (∀ (slot : Nat) (img : MatchImage) (x : Executing) (s : State), Takes (.defineMatch slot img) x s →
    (15 < slot → exec (.defineMatch slot img) s = .next (endWhole x (.badField .slot) s)) ∧
    (∀ (m : SlotId) (f : FieldName), slot = m.val → imageBadField img = some f →
      exec (.defineMatch slot img) s = .next (endWhole x (.badField f) s)) ∧
    (∀ m : SlotId, slot = m.val → imageBadField img = none → ∃ u,
      exec (.defineMatch slot img) s = .next (endWhole x .taken u) ∧ u = { s with mtb := u.mtb } ∧
      u.slot m = { s.slot m with staged := some (imageRecord img) } ∧ ∀ n, n ≠ m → u.slot n = s.slot n)) ∧
  (∀ img : MatchImage, imageBadField img = none ↔
    img.matchId ≠ 0 ∧ within 1 4 img.pidCount ∧ (∀ i : Fin 4, i.val < img.pidCount → img.pids.get i ≤ 0x1FFF) ∧
    img.wordPid ≤ 0x1FFF ∧ img.saleOpen < 2 ^ 33 ∧ img.earlyClose < 2 ^ 33 ∧ img.showStart < 2 ^ 33 ∧
    img.previewLen ≤ 1800 ∧ within 60 21600 img.scheduledLen ∧ img.overrunMax ≤ 7200 ∧ img.endHold ≤ 3600 ∧
    img.lateCutoff ≤ img.scheduledLen ∧ img.failPolicy ≤ 1) ∧
  (∀ img : MatchImage, imageBadField img = (List.find? (fun p : Bool × FieldName => p.1)
    [(decide (img.matchId = 0), .matchId), (decide (img.pidCount < 1 ∨ 4 < img.pidCount), .pidCount),
     (decide (0 < img.pidCount ∧ 0x1FFF < img.pids.get 0), .servicePid 0),
     (decide (1 < img.pidCount ∧ 0x1FFF < img.pids.get 1), .servicePid 1),
     (decide (2 < img.pidCount ∧ 0x1FFF < img.pids.get 2), .servicePid 2),
     (decide (3 < img.pidCount ∧ 0x1FFF < img.pids.get 3), .servicePid 3),
     (decide (0x1FFF < img.wordPid), .wordPid), (decide (8589934591 < img.saleOpen), .saleOpen),
     (decide (8589934591 < img.earlyClose), .earlyClose), (decide (8589934591 < img.showStart), .showStart),
     (decide (1800 < img.previewLen), .previewLen), (decide (img.scheduledLen < 60 ∨ 21600 < img.scheduledLen), .scheduledLen),
     (decide (7200 < img.overrunMax), .overrunMax), (decide (3600 < img.endHold), .endHold),
     (decide (img.scheduledLen < img.lateCutoff), .lateCutoff), (decide (1 < img.failPolicy), .failPolicy)]).map (·.2)) ∧
  (∀ (img : MatchImage) (r : MatchRecord), r = imageRecord img → imageBadField img = none →
    r.matchId = img.matchId ∧ r.servicePids.length = img.pidCount ∧
    (∀ k : Fin 4, k.val < img.pidCount → r.servicePids[k.val]? = some (img.pids.get k)) ∧ r.wordPid = img.wordPid ∧
    r.saleOpen.toNat = img.saleOpen ∧ r.earlyClose.toNat = img.earlyClose ∧ r.showStart.toNat = img.showStart ∧
    r.previewLen = img.previewLen ∧ r.scheduledLen = img.scheduledLen ∧ r.lateCutoff = img.lateCutoff ∧
    r.overrunMax = img.overrunMax ∧ r.endHold = img.endHold ∧ r.earlyPrice = img.earlyPrice ∧
    r.standardPrice = img.standardPrice ∧ r.lateFloor = img.lateFloor ∧
    r.failPolicy = (if img.failPolicy = 0 then .openPolicy else .closedPolicy) ∧ r.blackout = img.blackout)

/-- COMMIT_SCHEDULE of one slot, the checks of R33 in their order, and the slot judged by its state: an EMPTY slot claims its
identifiers, the continuity counter of its Word PID at 0, and becomes SCHEDULED with a new epoch record and a report (R7, R13,
R34, R35, R46, R109); SCHEDULED and ON_SALE take the record where its match id and identifiers are the live ones (R34). In
ON_SALE a commit that blacks out a region that the old set did not hold, or that changes the fail policy from OPEN to CLOSED,
sends a revocation notice for the slot (R36), which acts on the epoch record as R112 gives; any other commit into SCHEDULED or
ON_SALE leaves that record as it is (R34, R36). Any other state is TOO_LATE. Drawn values are known by their number
(notes/assumptions/11.md). -/
def Obligations.CommitScheduleItem : Prop :=
  ∀ (m : SlotId) (x : Executing) (s : State), Takes (.commitSchedule m) x s →
    ((s.slot m).staged = none → exec (.commitSchedule m) s = .next (endItem x ⟨.notStaged, 0⟩ s)) ∧
    (∀ r, (s.slot m).staged = some r →
      (s.now = none → exec (.commitSchedule m) s = .next (endItem x ⟨.noTime, 0⟩ s)) ∧
      (∀ now, s.now = some now →
        (signedDistance r.saleOpen r.earlyClose < 0 ∨ signedDistance r.earlyClose r.showStart < 0 ∨
            r.scheduledLen ≤ r.previewLen ∨
            12 * 3600 * 90000 < signedDistance r.saleOpen r.showStart +
              ((r.scheduledLen + r.overrunMax + r.endHold) * 90000 : Nat) ∨
            12 * 3600 * 90000 < signedDistance now r.saleOpen ∨ 12 * 3600 * 90000 < signedDistance now r.latestClose ∨
            reached r.latestClose now = true →
          exec (.commitSchedule m) s = .next (endItem x ⟨.badTimes, 0⟩ s)) ∧
        (outOfOrder r = false → tooLong r = false → outOfHorizon r now = false →
          ((s.slot m).state ≠ .empty → (s.slot m).state ≠ .scheduled → (s.slot m).state ≠ .onSale →
            exec (.commitSchedule m) s = .next (endItem x ⟨.tooLate, 0⟩ s)) ∧
          ((s.slot m).state = .empty → ((∃ p ∈ r.claims, s.siu.classOf p ≠ .pass ∧ s.siu.classOf p ≠ .drop) ∨
              ¬r.claims.Nodup) → exec (.commitSchedule m) s = .next (endItem x ⟨.pidConflict, 0⟩ s)) ∧
          ((s.slot m).state = .empty → memoryWf s = true →
            (∀ p ∈ r.claims, s.siu.classOf p = .pass ∨ s.siu.classOf p = .drop) → r.claims.Nodup → ∃ u,
            exec (.commitSchedule m) s =
              .next (endItem x ⟨if r.standardPrice < r.lateFloor then .clamped else .done, 0⟩ u) ∧
            u.slot m = { state := .scheduled, live := some { r with lateFloor := min r.lateFloor r.standardPrice }
                         staged := none, endMark := none } ∧
            u = { s with siu := { s.siu with pidMap := u.siu.pidMap, continuity := u.siu.continuity }, mtb := u.mtb
                         epc := u.epc, rpu := u.rpu, cmu := u.cmu, draws := u.draws } ∧
            (∀ n, n ≠ m → u.slot n = s.slot n ∧ u.epochSlot n = s.epochSlot n) ∧ (u.epochSlot m).ageTicks = 0 ∧
            reports [.matchState m r.matchId .empty .scheduled .commit none] s u ∧
            (∀ p ∈ r.servicePids, u.siu.classOf p = .service m) ∧ u.siu.classOf r.wordPid = .ownedWord m ∧
            (∀ p, p ∉ r.claims → u.siu.classOf p = s.siu.classOf p) ∧ counterOf u r.wordPid = 0 ∧
            (∀ p, p ≠ r.wordPid → counterOf u p = counterOf s p) ∧
            (∃ k a b, u.record m = some { epoch := 0, currentKey := k, issued := false, rollover := .steady
                                          pendingKey := none, passesLeft := 0, sweepAge := 0, redo := false
                                          evenWord := a, oddWord := b, phase := .even, epochAge := 0, cause := none } ∧
              k ≠ a ∧ k ≠ b ∧ a ≠ b ∧ ∀ d, d = k ∨ d = a ∨ d = b → s.draws ≤ d.serial ∧ d.serial < u.draws)) ∧
          (∀ old, ((s.slot m).state = .scheduled ∨ (s.slot m).state = .onSale) → s.live m = some old →
            (old.matchId ≠ r.matchId ∨ old.servicePids ≠ r.servicePids ∨ old.wordPid ≠ r.wordPid →
              exec (.commitSchedule m) s = .next (endItem x ⟨.fixedField, 0⟩ s)) ∧
            (old.matchId = r.matchId → old.servicePids = r.servicePids → old.wordPid = r.wordPid → ∃ u,
              exec (.commitSchedule m) s =
                .next (endItem x ⟨if r.standardPrice < r.lateFloor then .clamped else .done, 0⟩ u) ∧
              u = { s with mtb := u.mtb, epc := u.epc } ∧
              u.slot m = { s.slot m with
                live := some { r with lateFloor := min r.lateFloor r.standardPrice }, staged := none } ∧
              (∀ n, n ≠ m → u.slot n = s.slot n ∧ u.epochSlot n = s.epochSlot n) ∧
              (u.epochSlot m).ageTicks = (s.epochSlot m).ageTicks ∧
              ((s.slot m).state = .scheduled → u.record m = s.record m) ∧
              (∀ e, (s.slot m).state = .onSale → s.record m = some e → u.record m = some
                (if r.blackout &&& ~~~ old.blackout ≠ 0 ∨
                    (old.failPolicy = .openPolicy ∧ r.failPolicy = .closedPolicy)
                 then e.notice (e.issued || s.carouselHolds m e.epoch) else e)))))))

/-- The reading commands READ MATCH, READ POISON LIST, READ HOUSE LIST and READ SETTINGS change nothing but to end with a
READBACK of what stands at that moment, cut into parts that join to the whole (R45, R55, R59, R162, R164, R172); what READ
MATCH shows depends on no key and no word (R45), and a field that it does not fill carries 0 (R181). Their fields stand where
the order of the rules puts them; a READ POISON LIST closes with the Fault Record (R55, R175). The widths of the fields and the
flag of LOADED are the model's choice (notes/assumptions/15.md, 46.md). -/
def Obligations.ReadingCommandsCapture : Prop :=
  (∀ (x : Executing) (s : State),
    (∀ m : SlotId, Takes (.readMatch m.val) x s →
      exec (.readMatch m.val) s = .next (endWhole x { WholeOutcome.taken with readback := some (matchData m s) } s)) ∧
    (∀ slot, 15 < slot → Takes (.readMatch slot) x s →
      exec (.readMatch slot) s = .next (endWhole x (.badField .slot) s)) ∧
    (Takes .readPoisonList x s →
      exec .readPoisonList s = .next (endWhole x { WholeOutcome.taken with readback := some (poisonData s) } s)) ∧
    (Takes .readHouseList x s →
      exec .readHouseList s = .next (endWhole x { WholeOutcome.taken with readback := some (houseData s) } s)) ∧
    (Takes .readSettings x s →
      exec .readSettings s = .next (endWhole x { WholeOutcome.taken with readback := some (settingsData s) } s))) ∧
  (∀ s : State,
    (∀ k n, s.sst.house.length < 256 → s.sst.house[k]? = some n → n < 16777216 →
      numAt (houseData s) 0 1 = s.sst.house.length ∧ numAt (houseData s) (1 + 3 * k) 3 = n) ∧
    (∀ k e, s.sst.poison.length < 256 → s.sst.poison[k]? = some e → e.index < 16777216 →
      numAt (poisonData s) 0 1 = s.sst.store.code ∧ numAt (poisonData s) 1 4 = s.sst.signature.toNat ∧
      numAt (poisonData s) 5 1 = s.sst.poison.length ∧ numAt (poisonData s) (6 + 4 * k) 1 = e.kind.code ∧
      numAt (poisonData s) (7 + 4 * k) 3 = e.index) ∧
    (∀ o f, f = s.rpu.fault → o = 6 + 4 * s.sst.poison.length → s.sst.poison.length < 256 → f.index < 16777216 →
      (poisonData s).length = o + 18 ∧ numAt (poisonData s) o 1 = (if f.held then 1 else 0) ∧
      numAt (poisonData s) (o + 1) 1 = f.cls.code ∧ numAt (poisonData s) (o + 2) 3 = f.index ∧
      numAt (poisonData s) (o + 5) 1 = f.indexKind.code ∧ numAt (poisonData s) (o + 6) 4 = f.number.toNat ∧
      numAt (poisonData s) (o + 10) 1 = f.units % 256 ∧ numAt (poisonData s) (o + 11) 5 = f.time.toNat ∧
      numAt (poisonData s) (o + 16) 1 = f.marks.toNat ∧ numAt (poisonData s) (o + 17) 1 = f.further % 256) ∧
    (∀ k v, s.settings.values[k]? = some v → v < 4294967296 → numAt (settingsData s) (4 * k) 4 = v) ∧
    (numAt (settingsData s) 76 1 = if s.cmu.rootKey = 0 then 0 else 1) ∧
    numAt (settingsData s) 77 4 = s.cmu.lastAccepted.toNat ∧ (settingsData s).length = 81) ∧
  (∀ (m : SlotId) (s : State) (l : List (BitVec 8)), l = matchData m s →
    numAt l 0 1 = (s.slot m).state.code ∧ numAt l 1 1 = (if (s.slot m).staged.isSome then 1 else 0) ∧
    ((s.slot m).state = .empty → l.length = 2) ∧
    ((s.slot m).state ≠ .empty → s.live m = none → bytesAt l 2 79 = List.replicate 79 0) ∧
    ((s.slot m).state ≠ .empty → s.record m = none → l.drop (l.length - 9) = List.replicate 9 0) ∧
    (∀ rec r, (s.slot m).state ≠ .empty → s.live m = some rec → s.record m = some r →
      rec.servicePids.length ≤ 4 →
      l.length = 95 ∧ numAt l 2 4 = rec.matchId.toNat ∧ numAt l 6 1 = rec.servicePids.length ∧
      (∀ k p, rec.servicePids[k]? = some p → numAt l (7 + 2 * k) 2 = p % 65536) ∧
      (∀ k, rec.servicePids.length ≤ k → k < 4 → numAt l (7 + 2 * k) 2 = 0) ∧
      numAt l 15 2 = rec.wordPid % 65536 ∧ numAt l 17 5 = rec.saleOpen.toNat ∧ numAt l 22 5 = rec.earlyClose.toNat ∧
      numAt l 27 5 = rec.showStart.toNat ∧ numAt l 32 2 = rec.previewLen % 65536 ∧
      numAt l 34 2 = rec.scheduledLen % 65536 ∧ numAt l 36 2 = rec.lateCutoff % 65536 ∧
      numAt l 38 2 = rec.overrunMax % 65536 ∧ numAt l 40 2 = rec.endHold % 65536 ∧
      numAt l 42 2 = rec.earlyPrice % 65536 ∧ numAt l 44 2 = rec.standardPrice % 65536 ∧
      numAt l 46 2 = rec.lateFloor % 65536 ∧ numAt l 48 1 = rec.failPolicy.code ∧
      (∀ g : BitVec 8, (byteAt l (49 + g.toNat / 8)).getLsbD (g.toNat % 8) = rec.blackout.getLsbD g.toNat) ∧
      (∀ mark, (s.slot m).endMark = some mark → numAt l 81 5 = mark.toNat) ∧
      ((s.slot m).endMark = none → bytesAt l 81 5 = List.replicate 5 0) ∧
      numAt l 86 2 = r.epoch.toNat ∧ numAt l 88 1 = (if r.issued then 1 else 0) ∧
      numAt l 89 1 = r.rollover.code ∧ numAt l 90 1 = r.passesLeft % 256 ∧
      numAt l 91 1 = (if r.redo then 1 else 0) ∧ numAt l 92 1 = r.phase.code ∧
      numAt l 93 2 = r.epochAge % 65536)) ∧
  (∀ data : List (BitVec 8), (readbackParts data).flatten = data ∧
    ∀ part ∈ readbackParts data, part ≠ [] ∧ part.length ≤ 168) ∧
  (∀ (m : SlotId) (s t : State), s.mtb = t.mtb →
    (∀ a b, s.record m = some a → t.record m = some b → b = { a with
      currentKey := b.currentKey, pendingKey := b.pendingKey, evenWord := b.evenWord, oddWord := b.oddWord }) →
    ((s.record m).isSome = (t.record m).isSome) → matchData m s = matchData m t)

/-- FINAL_WHISTLE, ABANDON_MATCH and CLEAR_SLOT move a slot from the states that R39, R40 and R42 give; every other state is
WRONG_STATE and a slot above 15 BAD_FIELD, with nothing changed; each change of state is reported, and so is a rollover that
ABANDON MATCH drops (R39, R40, R42, R43, R46, R47, R66, R123, R126). That MATCH STATE stands before ROLLOVER ABANDONED, which R40
calls together, is deduced (notes/assumptions/28.md). -/
def Obligations.SlotMovingCommands : Prop :=
  ∀ (x : Executing) (s : State),
    (∀ m : SlotId,
      (Takes (.finalWhistle m.val) x s →
        (∀ rec, s.live m = some rec → (s.slot m).state = .live ∨ (s.slot m).state = .extended → ∃ u mark,
          (mark = match s.now with
            | some t => if 0 < signedDistance rec.scheduledEnd t then t else rec.scheduledEnd
            | none => rec.scheduledEnd) ∧ reports [stateReport s m .ended .whistle (some mark)] s u ∧
          exec (.finalWhistle m.val) s = .next (endWhole x .taken u) ∧
          u = { s with mtb := u.mtb, rpu := u.rpu } ∧ (∀ n, n ≠ m → u.slot n = s.slot n) ∧
          u.slot m = { s.slot m with state := .ended, endMark := some mark }) ∧
        ((s.slot m).state ≠ .live → (s.slot m).state ≠ .extended →
          exec (.finalWhistle m.val) s = .next (endWhole x (.refused .wrongState) s))) ∧
      (Takes (.abandonMatch m.val) x s →
        ((s.slot m).state = .scheduled ∨ (s.slot m).state = .onSale ∨ (s.slot m).state = .preview ∨
            (s.slot m).state = .live ∨ (s.slot m).state = .extended → ∃ u,
          exec (.abandonMatch m.val) s = .next (endWhole x .taken u) ∧
          u = { s with mtb := u.mtb, epc := u.epc, sst := u.sst, ina := { s.ina with words := u.ina.words }, rpu := u.rpu } ∧
          (∀ n, n ≠ m → u.wordTimer n = s.wordTimer n) ∧
          reports (stateReport s m .abandoned .abandon none ::
            (if (s.slot m).state = .scheduled then [] else dropReports s m)) s u ∧
          u.slot m = { s.slot m with state := .abandoned, endMark := none } ∧ (∀ n, n ≠ m → u.slot n = s.slot n) ∧
          u.sst = { s.sst with walkQueue := s.sst.walkQueue ++ [{ refund := true, slot := m }] } ∧
          u.wordTimer m = { due := none, timer := none } ∧ (∀ n, n ≠ m → u.record n = s.record n) ∧
          ∀ r, s.record m = some r → (s.slot m).state ≠ .scheduled → ∃ r', u.record m = some r' ∧
            r'.rollover = .steady ∧ r'.epoch = r.epoch ∧ r'.currentKey = r.currentKey ∧
            (r.rollover ≠ .steady → r'.pendingKey = none ∧ r'.passesLeft = 0 ∧ r'.redo = false)) ∧
        ((s.slot m).state.beforeEnd = false →
          exec (.abandonMatch m.val) s = .next (endWhole x (.refused .wrongState) s))) ∧
      (Takes (.clearSlot m.val) x s →
        ((s.slot m).state = .closed → ∃ u, exec (.clearSlot m.val) s = .next (endWhole x .taken u) ∧
          u = { s with mtb := u.mtb, sst := u.sst, rpu := u.rpu } ∧
          reports [stateReport s m .wiping .clear none] s u ∧ u.slot m = { s.slot m with state := .wiping } ∧ (∀ n, n ≠ m → u.slot n = s.slot n) ∧
          u.sst = { s.sst with walkQueue := s.sst.walkQueue ++ [{ refund := false, slot := m }] }) ∧
        ((s.slot m).state ≠ .closed →
          exec (.clearSlot m.val) s = .next (endWhole x (.refused .wrongState) s)))) ∧
    (∀ slot, 15 < slot →
      (Takes (.finalWhistle slot) x s → exec (.finalWhistle slot) s = .next (endWhole x (.badField .slot) s)) ∧
      (Takes (.abandonMatch slot) x s → exec (.abandonMatch slot) s = .next (endWhole x (.badField .slot) s)) ∧
      (Takes (.clearSlot slot) x s → exec (.clearSlot slot) s = .next (endWhole x (.badField .slot) s)))

/-- SET_BLACKOUT changes the live record's set by the listed regions and reports how many codes changed; an addition that
changed any owes the revocation notice of R112 (R44). FORCE_ROLLOVER is that notice with the issued flag taken as set
(R112, R113). That a bad operation is judged before the slot's state is deduced (notes/assumptions/39.md), and that a bad slot
is named before a bad operation is the model's choice (notes/assumptions/50.md). -/
def Obligations.SetBlackoutAndForceRollover : Prop :=
  ∀ (m : SlotId) (x : Executing) (s : State),
    (∀ (op : Nat) (l : List (BitVec 8)), Takes (.setBlackout m.val op l) x s →
      (1 < op → exec (.setBlackout m.val op l) s = .next (endWhole x (.badField .operation) s)) ∧
      (op ≤ 1 → (s.slot m).state.beforeEnd = false →
        exec (.setBlackout m.val op l) s = .next (endWhole x (.refused .wrongState) s)) ∧
      (∀ rec, s.live m = some rec → op ≤ 1 → (s.slot m).state.beforeEnd = true → ∃ u set n,
        exec (.setBlackout m.val op l) s = .next (endWhole x { WholeOutcome.taken with detail := .regions n } u) ∧
        u = { s with mtb := u.mtb, epc := u.epc } ∧ (∀ k, k ≠ m → u.slot k = s.slot k ∧ u.record k = s.record k) ∧
        u.slot m = { s.slot m with live := some { rec with blackout := set } } ∧
        (∀ g : BitVec 8, set.getLsbD g.toNat = true ↔
          if op = 0 then rec.blackout.getLsbD g.toNat = true ∨ g ∈ l
          else rec.blackout.getLsbD g.toNat = true ∧ g ∉ l) ∧
        n = ((List.range 256).filter fun i => rec.blackout.getLsbD i != set.getLsbD i).length ∧
        ∀ r, s.record m = some r → u.record m = some (if op = 0 ∧ 0 < n ∧ s.granting m = true then
          r.notice (r.issued || s.carouselHolds m r.epoch) else r))) ∧
    (Takes (.forceRollover m.val) x s →
      (s.granting m = false → exec (.forceRollover m.val) s = .next (endWhole x (.refused .wrongState) s)) ∧
      (∀ r, s.record m = some r → s.granting m = true → ∃ u, exec (.forceRollover m.val) s = .next (endWhole x .taken u) ∧
        u = { s with epc := u.epc } ∧ (∀ k, k ≠ m → u.record k = s.record k) ∧
        u.record m = some (match r.rollover with
          | .steady => { r with rollover := .pending, cause := some .notice }
          | .pending => r
          | .sweeping => { r with redo := true }
          | .switching => { r with redo := true }))) ∧
    (∀ slot, 15 < slot → (Takes (.forceRollover slot) x s →
        exec (.forceRollover slot) s = .next (endWhole x (.badField .slot) s)) ∧
      ∀ op l, Takes (.setBlackout slot op l) x s →
        exec (.setBlackout slot op l) s = .next (endWhole x (.badField .slot) s))

/-! ## Seat items -/

/-- The checks of R77 that every seat item makes, in their order: BAD_FIELD for a slot above 15 or an undefined mode,
OUT_OF_RANGE from Active Cohorts × 32 on, STORE_NOT_READY in CLEARING; then its reads, row before record, as many as the item
makes (PURCHASE, REFUND and WITHDRAW both, SUSPEND, RESUME and SET REGION the row, TOP UP CREDIT and CLEAR SEAT MARKS the record);
STORE_FAILED where the store is FAILED after them, listed items or not; ROW_POISONED where one of them found nothing, be it
listed or its digest wrong; each with value 0, and nothing changed but what a failed read itself does (R51, R52, R77, R78). A
listed item is not read; a readable one is given as it stands (R51). -/
def Obligations.SeatItemChecks : Prop :=
  (∀ (i : Instr) (seat : Nat) (x : Executing) (s : State) (both rowOnly recordOnly : Prop), Takes i x s →
    (both ↔ (∃ slot mode, slot ≤ 15 ∧ mode ≤ 1 ∧ i = .purchase seat slot mode) ∨
      ∃ slot, slot ≤ 15 ∧ (i = .refund seat slot ∨ i = .withdraw seat slot)) →
    (rowOnly ↔ i = .suspend seat ∨ i = .resume seat ∨ ∃ g, i = .setRegion seat g) →
    (recordOnly ↔ (∃ n, i = .topUpCredit seat n) ∨ i = .clearSeatMarks seat) →
    (∀ slot mode, 15 < slot ∨ 1 < mode → i = .purchase seat slot mode → exec i s = .next (endItem x ⟨.badField, 0⟩ s)) ∧
    (∀ slot, 15 < slot → (i = .refund seat slot ∨ i = .withdraw seat slot) →
      exec i s = .next (endItem x ⟨.badField, 0⟩ s)) ∧
    (both ∨ rowOnly ∨ recordOnly →
      (s.settings.activeCohorts * 32 ≤ seat → exec i s = .next (endItem x ⟨.outOfRange, 0⟩ s)) ∧
      (seat < s.settings.activeCohorts * 32 → s.sst.store = .clearing →
        exec i s = .next (endItem x ⟨.storeNotReady, 0⟩ s))) ∧
    (seat < s.settings.activeCohorts * 32 → s.sst.store ≠ .clearing →
      (∀ row q u v, both → readRow (seat / 32) s = (row, u) → readRecord seat u = (q, v) →
        (v.sst.store = .failed → exec i s = .next (endItem x ⟨.storeFailed, 0⟩ v)) ∧
        (v.sst.store ≠ .failed → row = none ∨ q = none → exec i s = .next (endItem x ⟨.rowPoisoned, 0⟩ v))) ∧
      (∀ row u, rowOnly → readRow (seat / 32) s = (row, u) →
        (u.sst.store = .failed → exec i s = .next (endItem x ⟨.storeFailed, 0⟩ u)) ∧
        (u.sst.store ≠ .failed → row = none → exec i s = .next (endItem x ⟨.rowPoisoned, 0⟩ u))) ∧
      (∀ q v, recordOnly → readRecord seat s = (q, v) →
        (v.sst.store = .failed → exec i s = .next (endItem x ⟨.storeFailed, 0⟩ v)) ∧
        (v.sst.store ≠ .failed → q = none → exec i s = .next (endItem x ⟨.rowPoisoned, 0⟩ v))))) ∧
  (∀ (c seat : Nat) (s : State), s.sst.store ≠ .clearing →
    (isPoisoned s .row c = true → readRow c s = (none, s)) ∧
    (rowReadable c s → readRow c s = (some (rowAt s c).content, s)) ∧
    (isPoisoned s .seat seat = true → readRecord seat s = (none, s)) ∧
    (recordReadable seat s → readRecord seat s = (some (recordAt s seat).content, s)))

/-- PURCHASE of a seat in range with row and record readable: the slot's state, then the seat's bit, suspension and region
decide whether it is sold; a charge above the credit is NO_CREDIT; otherwise the bit is set, the charge leaves the credit and
stands as the paid value, the writes are booked, and the pair joins the Fresh Queue (R56, R63, R77, R78, R84, R135). -/
def Obligations.PurchaseTakes : Prop :=
  ∀ (seat mode : Nat) (m : SlotId) (x : Executing) (row : RowImage) (q : RecordImage) (s : State),
    Takes (.purchase seat m.val mode) x s → mode ≤ 1 → seatOpen seat s → memoryWf s = true →
    rowReadable (seat / 32) s → recordReadable seat s → row = (rowAt s (seat / 32)).content →
    q = (recordAt s seat).content →
    ((s.slot m).state = .empty ∨ (s.slot m).state = .wiping →
      exec (.purchase seat m.val mode) s = .next (endItem x ⟨.slotNotActive, 0⟩ s)) ∧
    ((s.slot m).state = .scheduled → exec (.purchase seat m.val mode) s = .next (endItem x ⟨.notOnSale, 0⟩ s)) ∧
    ((s.slot m).state = .extended ∨ (s.slot m).state = .ended ∨ (s.slot m).state = .abandoned ∨
        (s.slot m).state = .closed → exec (.purchase seat m.val mode) s = .next (endItem x ⟨.saleClosed, 0⟩ s)) ∧
    (∀ rec, ((s.slot m).state = .onSale ∨ (s.slot m).state = .preview ∨ (s.slot m).state = .live) →
      s.live m = some rec →
      (row.holds m (memberOf seat) = true →
        exec (.purchase seat m.val mode) s = .next (endItem x ⟨.alreadyHeld, 0⟩ s)) ∧
      (row.holds m (memberOf seat) = false → row.suspended (memberOf seat) = true →
        exec (.purchase seat m.val mode) s = .next (endItem x ⟨.suspended, 0⟩ s)) ∧
      (row.holds m (memberOf seat) = false → row.suspended (memberOf seat) = false →
        rec.blackout.getLsbD (row.region.get (memberOf seat)).toNat = true →
        exec (.purchase seat m.val mode) s = .next (endItem x ⟨.blackedOut, 0⟩ s)) ∧
      (row.holds m (memberOf seat) = false → row.suspended (memberOf seat) = false →
        rec.blackout.getLsbD (row.region.get (memberOf seat)).toNat = false →
        (∀ c, chargeOf (decide (mode = 1)) m rec s = .error c →
          exec (.purchase seat m.val mode) s = .next (endItem x ⟨c, 0⟩ s)) ∧
        (∀ charge, chargeOf (decide (mode = 1)) m rec s = .ok charge →
          (q.credit.toNat < charge → exec (.purchase seat m.val mode) s = .next (endItem x ⟨.noCredit, 0⟩ s)) ∧
          (charge ≤ q.credit.toNat → ∃ u,
            exec (.purchase seat m.val mode) s = .next (endItem x ⟨.done, charge⟩ u) ∧
            rowBecomes (seat / 32) (row.buy m (memberOf seat)) s u ∧
            recordBecomes seat ({ q with credit := BitVec.ofNat 16 (q.credit.toNat - charge) }.setPaid m charge) s u ∧
            u.gcr.fresh = noticePair (seat / 32) m s.settings.freshRepeats s.gcr.fresh ∧
            booked (seat / 32) ((rowAt s (seat / 32)).digest ^^^ (rowAt u (seat / 32)).digest ^^^
              (recordAt s seat).digest ^^^ (recordAt u seat).digest) s u ∧
            u = { s with
              sst := { s.sst with
                rows := u.sst.rows, records := u.sst.records, signature := u.sst.signature
                accumulator := u.sst.accumulator }
              gcr := { s.gcr with fresh := u.gcr.fresh } }))))

/-- The charge: nothing for COMP; the standard price in PREVIEW; the early price in ON_SALE before early_close and the standard
price from it on; in LIVE the late charge up to late_cutoff, SALE_CLOSED after it; NO_TIME where the price needs stream time
and there is none (R79 to R82).
The late charge stays between the late floor and the standard price for a floor that R35 has lowered, is the standard
price at show start and the late floor at scheduled end, and never rises with elapsed time (R35, R80). -/
def Obligations.PurchasePrice : Prop :=
  (∀ (m : SlotId) (rec : MatchRecord) (s : State),
     chargeOf true m rec s = .ok 0 ∧
     ((s.slot m).state = .preview → chargeOf false m rec s = .ok rec.standardPrice) ∧
     ((s.slot m).state = .onSale ∨ (s.slot m).state = .live → s.now = none → chargeOf false m rec s = .error .noTime) ∧
     (∀ t, s.now = some t →
       ((s.slot m).state = .onSale → reached rec.earlyClose t = false → chargeOf false m rec s = .ok rec.earlyPrice) ∧
       ((s.slot m).state = .onSale → reached rec.earlyClose t = true → chargeOf false m rec s = .ok rec.standardPrice) ∧
       (∀ e L : Nat, L = rec.scheduledLen * 90000 → 0 < L →
         (e = if signedDistance rec.showStart t ≤ 0 then 0
              else if (L : Int) ≤ signedDistance rec.showStart t then L
              else (signedDistance rec.showStart t).toNat) → (s.slot m).state = .live →
         (rec.lateCutoff * 90000 < e → chargeOf false m rec s = .error .saleClosed) ∧
         (e ≤ rec.lateCutoff * 90000 → ∃ c n : Nat, chargeOf false m rec s = .ok c ∧ c = max n rec.lateFloor ∧
           rec.standardPrice * (L - e) ≤ n * L ∧ n * L < rec.standardPrice * (L - e) + L)))) ∧
  (∀ (rec : MatchRecord), 0 < rec.scheduledLen → rec.lateFloor ≤ rec.standardPrice →
     lateCharge rec 0 = rec.standardPrice ∧ lateCharge rec (rec.scheduledLen * 90000) = rec.lateFloor ∧
     ∀ e, rec.lateFloor ≤ lateCharge rec e ∧ lateCharge rec e ≤ rec.standardPrice ∧
       ∀ f, e ≤ f → lateCharge rec f ≤ lateCharge rec e)

/-- REFUND gives the paid value back to the credit by the credit-addition rule, its value being the credit really added, and
WITHDRAW gives nothing back; both clear the seat's bit and paid value and send a revocation notice; a slot without a match is
SLOT_NOT_ACTIVE and a clear bit NOT_HELD; the writes are booked (R56, R63, R77, R78, R85, R89, R90, R112). -/
def Obligations.RefundAndWithdraw : Prop :=
  ∀ (seat : Nat) (m : SlotId) (x : Executing) (row : RowImage) (q : RecordImage) (s : State), seatOpen seat s →
    memoryWf s = true → rowReadable (seat / 32) s → recordReadable seat s → row = (rowAt s (seat / 32)).content →
    q = (recordAt s seat).content →
    (Takes (.refund seat m.val) x s →
      ((s.slot m).state = .empty ∨ (s.slot m).state = .scheduled ∨ (s.slot m).state = .wiping →
        exec (.refund seat m.val) s = .next (endItem x ⟨.slotNotActive, 0⟩ s)) ∧
      ((s.slot m).state ≠ .empty → (s.slot m).state ≠ .scheduled → (s.slot m).state ≠ .wiping →
        (row.holds m (memberOf seat) = false → exec (.refund seat m.val) s = .next (endItem x ⟨.notHeld, 0⟩ s)) ∧
        (row.holds m (memberOf seat) = true → ∃ u,
          exec (.refund seat m.val) s = .next (endItem x
            ⟨if (addCredit s.settings.creditCap q.credit.toNat (q.paid.get m).toNat).2 then .capped else .done,
             (addCredit s.settings.creditCap q.credit.toNat (q.paid.get m).toNat).1 - q.credit.toNat⟩ u) ∧
          rowBecomes (seat / 32) (row.unbuy m (memberOf seat)) s u ∧
          recordBecomes seat ((q.credited s.settings.creditCap (q.paid.get m).toNat).setPaid m 0) s u ∧
          booked (seat / 32) ((rowAt s (seat / 32)).digest ^^^ (rowAt u (seat / 32)).digest ^^^
            (recordAt s seat).digest ^^^ (recordAt u seat).digest) s u ∧
          (∀ r, s.record m = some r → u.record m = some
            (if s.granting m then r.notice (r.issued || s.carouselHolds m r.epoch) else r)) ∧
          (∀ n, n ≠ m → u.record n = s.record n) ∧
          u = { s with epc := u.epc, sst := { s.sst with
            rows := u.sst.rows, records := u.sst.records, signature := u.sst.signature
            accumulator := u.sst.accumulator } }))) ∧
    (Takes (.withdraw seat m.val) x s →
      ((s.slot m).state = .empty ∨ (s.slot m).state = .wiping →
        exec (.withdraw seat m.val) s = .next (endItem x ⟨.slotNotActive, 0⟩ s)) ∧
      ((s.slot m).state ≠ .empty → (s.slot m).state ≠ .wiping →
        (row.holds m (memberOf seat) = false → exec (.withdraw seat m.val) s = .next (endItem x ⟨.notHeld, 0⟩ s)) ∧
        (row.holds m (memberOf seat) = true → ∃ u,
          exec (.withdraw seat m.val) s = .next (endItem x ⟨.done, 0⟩ u) ∧
          rowBecomes (seat / 32) (row.unbuy m (memberOf seat)) s u ∧ recordBecomes seat (q.setPaid m 0) s u ∧
          booked (seat / 32) ((rowAt s (seat / 32)).digest ^^^ (rowAt u (seat / 32)).digest ^^^
            (recordAt s seat).digest ^^^ (recordAt u seat).digest) s u ∧
          (∀ r, s.record m = some r → u.record m = some
            (if s.granting m then r.notice (r.issued || s.carouselHolds m r.epoch) else r)) ∧
          (∀ n, n ≠ m → u.record n = s.record n) ∧
          u = { s with epc := u.epc, sst := { s.sst with
            rows := u.sst.rows, records := u.sst.records, signature := u.sst.signature
            accumulator := u.sst.accumulator } })))

/-- SUSPEND, RESUME and SET_REGION: a row that already stands so is ALREADY; otherwise the row alone changes, and each granting
slot the seat holds gets the revocation notice of R93, the fresh notice of R94, or the one R95 gives for a region that
enters or leaves the blackout of its match; the write is booked (R56, R63, R77, R93, R94, R95, R112, R135). -/
def Obligations.SuspendResumeSetRegion : Prop :=
  ∀ (seat : Nat) (x : Executing) (row : RowImage) (s : State), seatOpen seat s → memoryWf s = true →
    rowReadable (seat / 32) s → row = (rowAt s (seat / 32)).content →
    (Takes (.suspend seat) x s →
      (row.suspended (memberOf seat) = true → exec (.suspend seat) s = .next (endItem x ⟨.already, 0⟩ s)) ∧
      (row.suspended (memberOf seat) = false → ∃ u, exec (.suspend seat) s = .next (endItem x ⟨.done, 0⟩ u) ∧
        rowBecomes (seat / 32) (row.setSuspend (memberOf seat) true) s u ∧
        booked (seat / 32) ((rowAt s (seat / 32)).digest ^^^ (rowAt u (seat / 32)).digest) s u ∧
        (∀ m r, s.record m = some r → u.record m = some
          (if s.granting m = true ∧ row.holds m (memberOf seat) = true then
            r.notice (r.issued || s.carouselHolds m r.epoch) else r)) ∧
        u = { s with epc := u.epc, sst := { s.sst with
          rows := u.sst.rows, signature := u.sst.signature, accumulator := u.sst.accumulator } })) ∧
    (Takes (.resume seat) x s →
      (row.suspended (memberOf seat) = false → exec (.resume seat) s = .next (endItem x ⟨.already, 0⟩ s)) ∧
      (row.suspended (memberOf seat) = true → ∃ u, exec (.resume seat) s = .next (endItem x ⟨.done, 0⟩ u) ∧
        rowBecomes (seat / 32) (row.setSuspend (memberOf seat) false) s u ∧
        booked (seat / 32) ((rowAt s (seat / 32)).digest ^^^ (rowAt u (seat / 32)).digest) s u ∧
        u.gcr.fresh = (slotList.filter fun m => s.granting m && row.holds m (memberOf seat)).foldl
          (fun l m => noticePair (seat / 32) m s.settings.freshRepeats l) s.gcr.fresh ∧
        u = { s with gcr := { s.gcr with fresh := u.gcr.fresh }, sst := { s.sst with
          rows := u.sst.rows, signature := u.sst.signature, accumulator := u.sst.accumulator } })) ∧
    (∀ g, Takes (.setRegion seat g) x s →
      (row.region.get (memberOf seat) = g → exec (.setRegion seat g) s = .next (endItem x ⟨.already, 0⟩ s)) ∧
      (row.region.get (memberOf seat) ≠ g → ∃ u, exec (.setRegion seat g) s = .next (endItem x ⟨.done, 0⟩ u) ∧
        rowBecomes (seat / 32) (row.setRegion (memberOf seat) g) s u ∧
        booked (seat / 32) ((rowAt s (seat / 32)).digest ^^^ (rowAt u (seat / 32)).digest) s u ∧
        (∀ m r rec, s.record m = some r → s.live m = some rec → u.record m = some
          (if s.granting m = true ∧ row.holds m (memberOf seat) = true ∧ row.suspended (memberOf seat) = false ∧
              inBlackout rec.blackout (row.region.get (memberOf seat)) = false ∧ inBlackout rec.blackout g = true then
            r.notice (r.issued || s.carouselHolds m r.epoch) else r)) ∧
        u.gcr.fresh = (slotList.filter fun m => s.granting m && row.holds m (memberOf seat) &&
            !row.suspended (memberOf seat) && (match s.live m with
              | some rec => inBlackout rec.blackout (row.region.get (memberOf seat)) && !inBlackout rec.blackout g
              | none => false)).foldl
          (fun l m => noticePair (seat / 32) m s.settings.freshRepeats l) s.gcr.fresh ∧
        u = { s with epc := u.epc, gcr := { s.gcr with fresh := u.gcr.fresh }, sst := { s.sst with
          rows := u.sst.rows, signature := u.sst.signature, accumulator := u.sst.accumulator } }))

/-- The credit-addition rule of R85, its three cases, the sat mark and the law it keeps, with the Credit Cap in force, for a top-up,
a refund and a walk's refund; a charge is deducted only where the credit covers it. -/
def Obligations.CreditAdditionLaw : Prop :=
  (∀ (cap credit amount new : Nat) (capped : Bool), addCredit cap credit amount = (new, capped) →
    (cap ≤ credit → new = credit ∧ (capped = true ↔ 0 < amount)) ∧
    (credit < cap → credit + amount ≤ cap → new = credit + amount ∧ capped = false) ∧
    (credit < cap → cap < credit + amount → new = cap ∧ capped = true) ∧
    credit ≤ new ∧ new ≤ credit + amount ∧ (credit ≤ cap → new ≤ cap) ∧ (cap < credit → new = credit) ∧
    (credit + amount ≤ cap → new = credit + amount) ∧ (capped = true ↔ new < credit + amount) ∧
    (cap < credit + amount → credit ≤ cap → new = cap)) ∧
  (∀ (q : RecordImage) (cap amount new : Nat) (capped : Bool), cap ≤ 65535 →
    addCredit cap q.credit.toNat amount = (new, capped) →
    (q.credited cap amount).credit.toNat = new ∧ (q.credited cap amount).paid = q.paid ∧
    (capped = true → (q.credited cap amount).sat = q.sat ||| 1) ∧ (capped = false → (q.credited cap amount).sat = q.sat)) ∧
  (∀ (q : RecordImage) (cap : Nat) (m : SlotId),
    q.refunded cap m = (q.credited cap (q.paid.get m).toNat).setPaid m 0) ∧
  (∀ (seat amount : Nat) (m : SlotId) (r : RowImage) (q : RecordImage) (s : State),
    (topUpChecks seat amount q s).1.value =
      (addCredit s.settings.creditCap q.credit.toNat amount).1 - q.credit.toNat ∧
    ((s.slot m).state.refundable = true → r.holds m (memberOf seat) = true → (refundChecks seat m r q s).1.value =
      (addCredit s.settings.creditCap q.credit.toNat (q.paid.get m).toNat).1 - q.credit.toNat)) ∧
  (∀ (seat charge : Nat) (m : SlotId) (r : RowImage) (q : RecordImage) (s : State), q.credit.toNat < charge →
    buySeat seat m charge r q s = (⟨.noCredit, 0⟩, s))

/-- TOP_UP_CREDIT adds by the credit-addition rule, CAPPED setting the sat mark, its value being what was really added;
CLEAR_SEAT_MARKS clears the sat mark, ALREADY where it is clear; the record alone changes, and a write is booked (R56, R63, R77, R85, R87, R88). -/
def Obligations.CreditItems : Prop :=
  ∀ (seat : Nat) (x : Executing) (q : RecordImage) (s : State), seatOpen seat s → memoryWf s = true →
    recordReadable seat s → q = (recordAt s seat).content →
    (∀ amount, Takes (.topUpCredit seat amount) x s → ∃ u,
      exec (.topUpCredit seat amount) s = .next (endItem x
        ⟨if (addCredit s.settings.creditCap q.credit.toNat amount).2 then .capped else .done,
         (addCredit s.settings.creditCap q.credit.toNat amount).1 - q.credit.toNat⟩ u) ∧
      recordBecomes seat { q with
        credit := BitVec.ofNat 16 (addCredit s.settings.creditCap q.credit.toNat amount).1
        sat := if (addCredit s.settings.creditCap q.credit.toNat amount).2 then q.sat ||| 1 else q.sat } s u ∧
      booked (seat / 32) ((recordAt s seat).digest ^^^ (recordAt u seat).digest) s u ∧
      u = { s with sst := { s.sst with
        records := u.sst.records, signature := u.sst.signature, accumulator := u.sst.accumulator } }) ∧
    (Takes (.clearSeatMarks seat) x s →
      (q.sat.getLsbD 0 = false → exec (.clearSeatMarks seat) s = .next (endItem x ⟨.already, 0⟩ s)) ∧
      (q.sat.getLsbD 0 = true → ∃ u, exec (.clearSeatMarks seat) s = .next (endItem x ⟨.done, 0⟩ u) ∧
        recordBecomes seat { q with sat := q.sat &&& 0xFE } s u ∧
        booked (seat / 32) ((recordAt s seat).digest ^^^ (recordAt u seat).digest) s u ∧
        u = { s with sst := { s.sst with
          records := u.sst.records, signature := u.sst.signature, accumulator := u.sst.accumulator } }))

/-! ## The Seat Store's commands -/

/-- LOAD_COHORT_ROW and LOAD_SEAT_RECORDS: a cohort or seat out of range, CLEARING and FAILED are the codes of R71 and R72 in
that order; otherwise the item is written whole with its digest and leaves the Poison List, CURED where the old one was
listed or did not check, the write is booked with the old stored digest as it reads, and a row load sends each granting slot
the notices of R71 (R54, R56, R63, R71, R72, R180). The result that
carries a code is deduced (notes/assumptions/38.md). -/
def Obligations.LoadsWriteAndCure : Prop :=
  ∀ (x : Executing) (s : State),
    (∀ (c : Nat) (row : RowImage), Takes (.loadCohortRow c row) x s →
      (32767 < c → exec (.loadCohortRow c row) s = .next (endWhole x (.coded .outOfRange) s)) ∧
      (c ≤ 32767 → s.sst.store = .clearing →
        exec (.loadCohortRow c row) s = .next (endWhole x (.coded .storeNotReady) s)) ∧
      (c ≤ 32767 → s.sst.store = .failed →
        exec (.loadCohortRow c row) s = .next (endWhole x (.coded .storeFailed) s)) ∧
      (c ≤ 32767 → storeOpen s → memoryWf s = true → ∃ u code,
        exec (.loadCohortRow c row) s = .next (endWhole x (.coded code) u) ∧
        (rowReadable c s → code = .done) ∧ (¬rowReadable c s → code = .cured) ∧ rowBecomes c row s u ∧
        u.sst.poison = s.sst.poison.erase { kind := .row, index := c } ∧
        booked c ((rowAt s c).digest ^^^ rowDigest row) s u ∧
        (∀ m r rec, s.granting m = true → s.record m = some r → s.live m = some rec →
          (¬rowReadable c s ∨ rowMask (rowAt s c).content m rec.blackout &&& ~~~ rowMask row m rec.blackout ≠ 0 →
            u.record m = some (r.notice (r.issued || s.carouselHolds m r.epoch))) ∧
          (rowReadable c s → rowMask (rowAt s c).content m rec.blackout &&& ~~~ rowMask row m rec.blackout = 0 →
            u.record m = some r)) ∧
        (∀ m, s.granting m = false → u.record m = s.record m) ∧
        u.gcr.fresh = (slotList.filter fun m => s.granting m && (match s.live m with
            | some rec => decide (rowMask row m rec.blackout ≠ 0)
            | none => false)).foldl (fun l m => noticePair c m s.settings.freshRepeats l) s.gcr.fresh ∧
        u = { s with epc := u.epc, gcr := { s.gcr with fresh := u.gcr.fresh }, sst := { s.sst with
          rows := u.sst.rows, poison := u.sst.poison, signature := u.sst.signature
          accumulator := u.sst.accumulator } })) ∧
    (∀ (seat : Nat) (img : RecordImage), Takes (.loadSeatRecords seat img) x s →
      (1048575 < seat → exec (.loadSeatRecords seat img) s = .next (endItem x ⟨.outOfRange, 0⟩ s)) ∧
      (seat ≤ 1048575 → s.sst.store = .clearing →
        exec (.loadSeatRecords seat img) s = .next (endItem x ⟨.storeNotReady, 0⟩ s)) ∧
      (seat ≤ 1048575 → s.sst.store = .failed →
        exec (.loadSeatRecords seat img) s = .next (endItem x ⟨.storeFailed, 0⟩ s)) ∧
      (seat ≤ 1048575 → storeOpen s → memoryWf s = true → ∃ u code,
        exec (.loadSeatRecords seat img) s = .next (endItem x ⟨code, 0⟩ u) ∧
        (recordReadable seat s → code = .done) ∧ (¬recordReadable seat s → code = .cured) ∧
        recordBecomes seat { img with sat := img.sat &&& 1 } s u ∧
        u.sst.poison = s.sst.poison.erase { kind := .seat, index := seat } ∧
        booked (seat / 32) ((recordAt s seat).digest ^^^ (recordAt u seat).digest) s u ∧
        u = { s with sst := { s.sst with
          records := u.sst.records, poison := u.sst.poison, signature := u.sst.signature
          accumulator := u.sst.accumulator } }))

/-- QUERY_SEAT makes a checked read of the seat's row and then of its record, and answers with the seat, the store state, the
House Seat List, the status of each and what a readable one holds, the fields of a POISONED one carrying 0 (R181), DONE where
both were readable and ROW_POISONED where either was not; a listed item is not read, a readable one is given as it stands and
changes nothing, and one that fails its digest is POISONED; in CLEARING and out of range it answers a code alone (R51, R73).
The store state and the house mark are those after the reads, a record after a row that ended the verify LOST is shown
POISONED, and the widths and the result that carries a code are the model's (notes/assumptions/15.md, 38.md, 42.md, 43.md). -/
def Obligations.QuerySeatShowsSeat : Prop :=
  (∀ (seat : Nat) (x : Executing) (s : State), Takes (.querySeat seat) x s →
    (1048575 < seat → exec (.querySeat seat) s = .next (endWhole x (.coded .outOfRange) s)) ∧
    (seat ≤ 1048575 → s.sst.store = .clearing →
      exec (.querySeat seat) s = .next (endWhole x (.coded .storeNotReady) s)) ∧
    (∀ row q u v, seat ≤ 1048575 → s.sst.store ≠ .clearing → readRow (seat / 32) s = (row, u) → readRecord seat u = (q, v) →
      ∃ data, exec (.querySeat seat) s = .next (endWhole x
        { WholeOutcome.coded (if row.isSome ∧ q.isSome then .done else .rowPoisoned) with readback := some data } v) ∧
      data.length = 60 ∧ numAt data 0 3 = seat ∧ numAt data 3 1 = v.sst.store.code ∧
      numAt data 4 1 = (if seat ∈ v.sst.house then 1 else 0) ∧
      (row = none → byteAt data 5 = 1 ∧ bytesAt data 6 18 = List.replicate 18 0) ∧
      (∀ r, row = some r → byteAt data 5 = 0 ∧ byteAt data 6 = r.region.get (memberOf seat) ∧
        (∀ m : SlotId, numAt data (7 + m.val) 1 = if r.holds m (memberOf seat) then 1 else 0) ∧
        numAt data 23 1 = (if r.suspended (memberOf seat) then 1 else 0)) ∧
      (q = none → byteAt data 24 = 1 ∧ bytesAt data 25 35 = List.replicate 35 0) ∧
      (∀ r, q = some r → byteAt data 24 = 0 ∧ numAt data 25 2 = r.credit.toNat ∧
        (∀ m : SlotId, numAt data (27 + 2 * m.val) 2 = (r.paid.get m).toNat) ∧
        numAt data 59 1 = r.sat.toNat % 2))) ∧
  (∀ (seat : Nat) (row : Option RowImage) (q : Option RecordImage) (s u v : State), s.sst.store ≠ .clearing →
    readRow (seat / 32) s = (row, u) → readRecord seat u = (q, v) →
    (rowReadable (seat / 32) s → row = some (rowAt s (seat / 32)).content ∧ u = s) ∧
    (isPoisoned s .row (seat / 32) = true → row = none ∧ u = s) ∧ (¬rowReadable (seat / 32) s → row = none) ∧
    u.sst.rows = s.sst.rows ∧ u.sst.records = s.sst.records ∧ u.sst.house = s.sst.house ∧
    (u.sst.store ≠ .clearing → recordReadable seat u → q = some (recordAt s seat).content ∧ v = u) ∧
    (isPoisoned u .seat seat = true → q = none ∧ v = u) ∧ (¬recordReadable seat u → q = none) ∧
    (u.sst.store = .clearing → q = none ∧ v = u) ∧
    v.sst.rows = s.sst.rows ∧ v.sst.records = s.sst.records ∧ v.sst.house = s.sst.house)

/-- CLEAR_STORE in any store state: walks are cut and the Walk Queue emptied, a WIPING slot becomes EMPTY and an ABANDONED one
CLOSED, the store enters CLEARING at cohort 0 with signature 0 and an empty Poison List, and the House Seat List and the
stored items stay; the changes and the refunds cut are reported in slot order before STORE CLEARING, and a slot that becomes
CLOSED releases its identifiers (R7, R43, R46, R60, R61, R70). -/
def Obligations.ClearStoreCuts : Prop :=
  ∀ (x : Executing) (s : State), Takes .clearStore x s → ∃ u, exec .clearStore s = .next (endWhole x .taken u) ∧
    u.sst = { s.sst with poison := [], signature := 0, store := .clearing, walkQueue := []
                         walk := some { kind := .clear, cohort := 0, rowSkips := 0, seatSkips := 0 } } ∧
    (∀ m, ((s.slot m).state = .wiping →
        u.slot m = { s.slot m with state := .empty, live := none, endMark := none } ∧ u.record m = none) ∧
      ((s.slot m).state = .abandoned → u.slot m = { s.slot m with state := .closed }) ∧
      ((s.slot m).state ≠ .wiping → (s.slot m).state ≠ .abandoned → u.slot m = s.slot m ∧
        ∀ r, s.record m = some r → u.record m = some
          (if s.granting m = true ∧ ∃ rec, s.live m = some rec ∧ rec.failPolicy = .closedPolicy then
            r.notice (r.issued || s.carouselHolds m r.epoch) else r))) ∧
    reports (slotList.flatMap (cutReports s) ++ [.storeClearing]) s u ∧
    (∀ m rec, memoryWf s = true → (s.slot m).state = .abandoned → s.live m = some rec →
      ∀ p ∈ rec.claims, u.siu.classOf p = .pass) ∧
    (∀ p, memoryWf s = true → (∀ m rec, (s.slot m).state = .abandoned → s.live m = some rec → p ∉ rec.claims) →
      u.siu.classOf p = s.siu.classOf p) ∧
    u.out = s.out ∧ u.tbu = s.tbu ∧ u.gcr = s.gcr ∧ u.settings = s.settings ∧ u.power = s.power ∧
    u.cmu.executing = s.cmu.executing ∧ u.cmu.lastAccepted = s.cmu.lastAccepted

/-- ADD_HOUSE_SEAT and REMOVE_HOUSE_SEAT keep the House Seat List without repeats and at most 64 long, and owe every granting
slot a fresh notice or a revocation notice (R57, R58, R112, R135). The result that carries a code is deduced
(notes/assumptions/38.md). -/
def Obligations.HouseSeats : Prop :=
  ∀ (seat : Nat) (x : Executing) (s : State),
    (Takes (.addHouseSeat seat) x s →
      (1048575 < seat → exec (.addHouseSeat seat) s = .next (endWhole x (.coded .outOfRange) s)) ∧
      (seat ≤ 1048575 → seat ∈ s.sst.house → exec (.addHouseSeat seat) s = .next (endWhole x (.coded .duplicate) s)) ∧
      (seat ≤ 1048575 → seat ∉ s.sst.house → 64 ≤ s.sst.house.length →
        exec (.addHouseSeat seat) s = .next (endWhole x (.coded .listFull) s)) ∧
      (seat ≤ 1048575 → seat ∉ s.sst.house → s.sst.house.length < 64 →
        exec (.addHouseSeat seat) s = .next (endWhole x (.coded .done) { s with
          sst := { s.sst with house := s.sst.house ++ [seat] }
          gcr := { s.gcr with
            fresh := (slotList.filter fun m => s.granting m).foldl
              (fun l m => noticePair (seat / 32) m s.settings.freshRepeats l) s.gcr.fresh } }))) ∧
    (Takes (.removeHouseSeat seat) x s →
      (1048575 < seat → exec (.removeHouseSeat seat) s = .next (endWhole x (.coded .outOfRange) s)) ∧
      (seat ≤ 1048575 → seat ∉ s.sst.house →
        exec (.removeHouseSeat seat) s = .next (endWhole x (.coded .notHeld) s)) ∧
      (seat ≤ 1048575 → seat ∈ s.sst.house → ∃ u,
        exec (.removeHouseSeat seat) s = .next (endWhole x (.coded .done) u) ∧
        u = { s with epc := u.epc, sst := { s.sst with house := s.sst.house.erase seat } } ∧
        ∀ m r, s.record m = some r → u.record m = some
          (if s.granting m then r.notice (r.issued || s.carouselHolds m r.epoch) else r)))

/-! ## Settings, identifiers, keys and marks -/

/-- SET_SETTINGS: an undefined setting or fill value refuses the whole command and names its pair, the first that fails
(notes/assumptions/47.md); a conflict of the three
identifiers refuses it; else every pair has the code DONE or CLAMPED, the last pair of a setting decides, each of the nineteen
with its range of section 10.6, a setting that no pair names stays, and the marks of the PID Map move together with their
counters at 0 (R8, R13, R163, R180). -/
def Obligations.SetSettingsWhole : Prop :=
  (∀ (pairs : List (Nat × Nat)) (x : Executing) (s : State), Takes (.setSettings pairs) x s →
    (∀ k p, pairs[k]? = some p → (p.1 = 0 ∨ 19 < p.1 ∨ (p.1 = 13 ∧ 1 < p.2)) →
      (∀ j q, j < k → pairs[j]? = some q → 1 ≤ q.1 ∧ q.1 ≤ 19 ∧ (q.1 = 13 → q.2 ≤ 1)) →
      exec (.setSettings pairs) s = .next (endWhole x (.badField (.pair k)) s)) ∧
    ((∀ p ∈ pairs, 1 ≤ p.1 ∧ p.1 ≤ 19 ∧ (p.1 = 13 → p.2 ≤ 1)) →
      (¬(settingsAfter s.settings pairs).marks.Nodup ∨ (∃ p ∈ (settingsAfter s.settings pairs).marks,
          p ∉ s.settings.marks ∧ s.siu.classOf p ≠ .pass ∧ s.siu.classOf p ≠ .drop) →
        exec (.setSettings pairs) s = .next (endWhole x (.refused .pidConflict) s)) ∧
      ((settingsAfter s.settings pairs).marks.Nodup → (∀ p ∈ (settingsAfter s.settings pairs).marks,
          p ∈ s.settings.marks ∨ s.siu.classOf p = .pass ∨ s.siu.classOf p = .drop) → memoryWf s = true →
        ∃ u, exec (.setSettings pairs) s = .next (endWhole x
          { WholeOutcome.taken with codes := pairs.map fun p =>
            ⟨if clampSetting p.1 p.2 = p.2 then .done else .clamped, 0⟩ } u) ∧
        u.settings = settingsAfter s.settings pairs ∧
        (∀ p ∈ s.settings.marks, p ∉ u.settings.marks → u.siu.classOf p = .pass) ∧
        (∀ p, p ∉ s.settings.marks → p ∉ u.settings.marks → u.siu.classOf p = s.siu.classOf p ∧
          counterOf u p = counterOf s p) ∧
        (u.settings.controlPid ≠ s.settings.controlPid → u.siu.classOf u.settings.controlPid = .control) ∧
        (u.settings.reportPid ≠ s.settings.reportPid →
          u.siu.classOf u.settings.reportPid = .ownedReport ∧ counterOf u u.settings.reportPid = 0) ∧
        (u.settings.grantPid ≠ s.settings.grantPid →
          u.siu.classOf u.settings.grantPid = .ownedGrant ∧ counterOf u u.settings.grantPid = 0) ∧
        u = { s with siu := u.siu, tbu := u.tbu, ina := u.ina, cmu := u.cmu, rpu := u.rpu, settings := u.settings }))) ∧
  (∀ (t u : Settings) (pairs : List (Nat × Nat)), u = settingsAfter t pairs →
    (t.lawful → (∀ p ∈ pairs, 1 ≤ p.1 ∧ p.1 ≤ 19) → u.lawful) ∧
    (∀ k v a b, pairs = a ++ (k, v) :: b → (∀ p ∈ b, p.1 ≠ k) →
      (k = 1 → u.cryptoPeriod = clampSetting 1 v) ∧ (k = 2 → u.wordInterval = clampSetting 2 v) ∧
      (k = 3 → u.grantPace = clampSetting 3 v) ∧ (k = 4 → u.freshRunLimit = clampSetting 4 v) ∧
      (k = 5 → u.freshRepeats = clampSetting 5 v) ∧ (k = 6 → u.rolloverPasses = clampSetting 6 v) ∧
      (k = 7 → u.rushThreshold = clampSetting 7 v) ∧ (k = 8 → u.rolloverDeadline = clampSetting 8 v) ∧
      (k = 9 → u.epochLifetime = clampSetting 9 v) ∧ (k = 10 → u.creditCap = clampSetting 10 v) ∧
      (k = 11 → u.holdoverLimit = clampSetting 11 v) ∧ (k = 12 → u.statusInterval = clampSetting 12 v) ∧
      (k = 13 → u.inputFill = (if v = 0 then .null else .flood)) ∧ (k = 14 → u.fillRate = clampSetting 14 v) ∧
      (k = 15 → u.activeCohorts = clampSetting 15 v) ∧ (k = 16 → u.controlPid = clampSetting 16 v) ∧
      (k = 17 → u.reportPid = clampSetting 17 v) ∧ (k = 18 → u.grantPid = clampSetting 18 v) ∧
      (k = 19 → u.clockPid = clampSetting 19 v)) ∧
    (∀ k, (∀ p ∈ pairs, p.1 ≠ k) →
      (k = 1 → u.cryptoPeriod = t.cryptoPeriod) ∧ (k = 2 → u.wordInterval = t.wordInterval) ∧
      (k = 3 → u.grantPace = t.grantPace) ∧ (k = 4 → u.freshRunLimit = t.freshRunLimit) ∧
      (k = 5 → u.freshRepeats = t.freshRepeats) ∧ (k = 6 → u.rolloverPasses = t.rolloverPasses) ∧
      (k = 7 → u.rushThreshold = t.rushThreshold) ∧ (k = 8 → u.rolloverDeadline = t.rolloverDeadline) ∧
      (k = 9 → u.epochLifetime = t.epochLifetime) ∧ (k = 10 → u.creditCap = t.creditCap) ∧
      (k = 11 → u.holdoverLimit = t.holdoverLimit) ∧ (k = 12 → u.statusInterval = t.statusInterval) ∧
      (k = 13 → u.inputFill = t.inputFill) ∧ (k = 14 → u.fillRate = t.fillRate) ∧
      (k = 15 → u.activeCohorts = t.activeCohorts) ∧ (k = 16 → u.controlPid = t.controlPid) ∧
      (k = 17 → u.reportPid = t.reportPid) ∧ (k = 18 → u.grantPid = t.grantPid) ∧ (k = 19 → u.clockPid = t.clockPid))) ∧
  (∀ e ∈ [(1, 2, 60), (2, 20, 500), (4, 1, 8), (5, 1, 3), (6, 1, 4), (8, 30, 3600), (10, 1, 65535), (11, 100, 2000),
      (12, 500, 10000), (14, 1000, 200000), (15, 1, 32768), (16, 0x20, 0x1FFE), (17, 0x20, 0x1FFE), (18, 0x20, 0x1FFE),
      (19, 0, 0x1FFE)], ∀ v, clampSetting e.1 v = max e.2.1 (min v e.2.2)) ∧
  (∀ e ∈ [(3, 1, 10000), (7, 10, 1800), (9, 5, 240)], ∀ v,
    clampSetting e.1 v = if v = 0 then 0 else max e.2.1 (min v e.2.2)) ∧
  (∀ v, clampSetting 13 v = v)

/-- SET_SETTINGS that is taken acts at once where the owning rule says so: a new Fill Rate counts its interval from the last fill
slot (R11; slots missed meanwhile are owed, notes/assumptions/40.md); a new Holdover Limit already reached enters HOLDOVER
with its report, or discards the candidate (R23); a new Status Interval or Grant Pace already reached makes its timer expire,
and Grant Pace 0 stops the pace timer while another value starts it again (R148, R150, R151); a new Word Message Interval
already reached makes the repeat timer expire, which is deduced (R125, R147; notes/assumptions/26.md). -/
def Obligations.SettingsActAtOnce : Prop :=
  ∀ (pairs : List (Nat × Nat)) (x : Executing) (s : State) (new : Settings), Takes (.setSettings pairs) x s →
    new = settingsAfter s.settings pairs → (∀ p ∈ pairs, 1 ≤ p.1 ∧ p.1 ≤ 19 ∧ (p.1 = 13 → p.2 ≤ 1)) → new.marks.Nodup →
    (∀ p ∈ new.marks, p ∈ s.settings.marks ∨ s.siu.classOf p = .pass ∨ s.siu.classOf p = .drop) →
    ∃ u codes, exec (.setSettings pairs) s = .next (endWhole x { WholeOutcome.taken with codes := codes } u) ∧
      u.settings = new ∧
      (new.fillRate ≠ s.settings.fillRate → s.siu.lock ≠ .locked → u.siu.fill =
        { elapsed := s.siu.fill.sinceLast, created := 0, sinceLast := s.siu.fill.sinceLast }) ∧
      (new.fillRate = s.settings.fillRate ∨ s.siu.lock = .locked → u.siu.fill = s.siu.fill) ∧
      (∀ a, new.holdoverLimit ≠ s.settings.holdoverLimit → s.tbu.holdoverSince = some a →
        new.holdoverLimit * 90 ≤ (s.tbu.tick - a).toNat →
        (s.tbu.state = .tracking → reports [.holdoverEntered] s u ∧ u.tbu = { s.tbu with
          state := .holdover, candidate := none, holdoverSince := none, holdoverSeen := true }) ∧
        (s.tbu.state = .holdover → reports [] s u ∧
          u.tbu = { s.tbu with candidate := none, holdoverSince := none }) ∧
        (s.tbu.state = .noTime → reports [] s u ∧ u.tbu = s.tbu)) ∧
      ((new.holdoverLimit = s.settings.holdoverLimit ∨ s.tbu.holdoverSince = none ∨
          ∃ a, s.tbu.holdoverSince = some a ∧ (s.tbu.tick - a).toNat < new.holdoverLimit * 90) →
        reports [] s u ∧ u.tbu = s.tbu) ∧
      (new.statusInterval ≠ s.settings.statusInterval → new.statusInterval * 90 ≤ s.ina.statusTimer →
        u.ina.statusDue = true ∧ u.ina.statusTimer = 0) ∧
      (new.statusInterval = s.settings.statusInterval ∨ s.ina.statusTimer < new.statusInterval * 90 →
        u.ina.statusDue = s.ina.statusDue ∧ u.ina.statusTimer = s.ina.statusTimer) ∧
      (new.grantPace = s.settings.grantPace → u.ina.paceTimer = s.ina.paceTimer ∧ u.ina.credits = s.ina.credits) ∧
      (new.grantPace ≠ s.settings.grantPace →
        (new.grantPace = 0 → u.ina.paceTimer = none ∧ u.ina.credits = s.ina.credits) ∧
        (new.grantPace ≠ 0 → s.ina.paceTimer = none → u.ina.paceTimer = some 0 ∧ u.ina.credits = s.ina.credits) ∧
        (∀ n, new.grantPace ≠ 0 → s.ina.paceTimer = some n →
          (new.grantPace * 9 ≤ n → u.ina.paceTimer = some 0 ∧
            u.ina.credits = if s.ina.credits < 2 then s.ina.credits + 1 else s.ina.credits) ∧
          (n < new.grantPace * 9 → u.ina.paceTimer = some n ∧ u.ina.credits = s.ina.credits))) ∧
      u.ina.freshRun = s.ina.freshRun ∧
      ∀ m, ((s.wordTimer m).timer = none ∨ new.wordInterval = s.settings.wordInterval → u.wordTimer m = s.wordTimer m) ∧
        ∀ n, (s.wordTimer m).timer = some n → new.wordInterval ≠ s.settings.wordInterval →
          (new.wordInterval * 90 ≤ n →
            u.wordTimer m = { due := some ((s.wordTimer m).due.getD s.tbu.tick), timer := some 0 }) ∧
          (n < new.wordInterval * 90 → u.wordTimer m = s.wordTimer m)

/-- SET_PID_CLASS gives an identifier that is PASS or DROP the class asked for, and answers BAD_FIELD above 8,191 and
PID_RESERVED for any other class, asked for or held, with nothing changed (R6, R180).
SET_ROOT_KEY takes an intact key that is not all zeros and refuses any other as BAD_KEY (R165); RELEASE_FAULT clears the
Fault Record and leaves everything else (R176); CLEAR_STATUS_MARKS sets the seven counters to 0 and clears the two event marks
(R4, R24, R174). -/
def Obligations.IdentifierKeyAndMarkCommands : Prop :=
  (∀ (pid cls : Nat) (x : Executing) (s : State), Takes (.setPidClass pid cls) x s →
    (8191 < pid → exec (.setPidClass pid cls) s = .next (endItem x ⟨.badField, 0⟩ s)) ∧
    (pid ≤ 8191 → (1 < cls ∨ (s.siu.classOf pid ≠ .pass ∧ s.siu.classOf pid ≠ .drop)) →
      exec (.setPidClass pid cls) s = .next (endItem x ⟨.pidReserved, 0⟩ s)) ∧
    (pid ≤ 8191 → cls ≤ 1 → (s.siu.classOf pid = .pass ∨ s.siu.classOf pid = .drop) → memoryWf s = true → ∃ u,
      exec (.setPidClass pid cls) s = .next (endItem x ⟨.done, 0⟩ u) ∧
      u.siu.classOf pid = (if cls = 0 then .pass else .drop) ∧ (∀ p, p ≠ pid → u.siu.classOf p = s.siu.classOf p) ∧
      u = { s with siu := { s.siu with pidMap := u.siu.pidMap } })) ∧
  (∀ (x : Executing) (s : State),
    (∀ w : BitVec 256, Takes (.setRootKey w) x s → exec (.setRootKey w) s = .next
      (if (Config.unwrapKey s.cmu.unitKey w).2 = true ∧ (Config.unwrapKey s.cmu.unitKey w).1 ≠ 0 then
        endWhole x .taken { s with cmu := { s.cmu with rootKey := (Config.unwrapKey s.cmu.unitKey w).1 } }
      else endWhole x (.refused .badKey) s)) ∧
    (Takes .releaseFault x s → exec .releaseFault s = .next (endWhole x .taken { s with rpu := { s.rpu with
      fault := { held := false, cls := .rowCheck, index := 0, indexKind := .row, number := 0, units := 0, time := 0
                 marks := 0, further := 0 } } })) ∧
    (Takes .clearStatusMarks x s → exec .clearStatusMarks s = .next (endWhole x .taken { s with
      rpu := { s.rpu with counters := { checkFailures := 0, staleCommands := 0, discardedCommands := 0, droppedReports := 0
                                        ownedCollisions := 0, preScrambled := 0, transportErrors := 0 } }
      tbu := { s.tbu with holdoverSeen := false }, siu := { s.siu with inputLostSeen := false } })))

/-! ## Hold, resets and supplies -/

/-- RESTART releases its reservation, writes no RESULT, leaves its progress record COMPLETE and enters hold (R168). HOLD_ENTRY
stops the command in execution behind the unit it has in hand and, where there is none, settles the Seat Store; in a part
already in hold it changes nothing (R167). The unit in hand has its effect, the one it has in a running part (R48, R74, R96, R127),
and then the command stops: the progress record shows the units taken, no RESULT is written and the store settles (R166, R167).
SET SETTINGS as the unit in hand changes the settings, marks and fill, and the timers that hold has stopped stay as they are
(R28, R155; the candidate and the moment: notes/assumptions/54.md, 55.md).
RETAINED_CHECK_CONFIRMED stops Stream Out at step 5 (R155, R167). Which unit is in hand, and how the steps of hold and the level
of PWARN at step 5 are kept, is the model's choice (notes/assumptions/1.md, 25.md).
RESTART_SELF_RESET changes nothing unless the part is held for RESTART with PWARN not asserted at step 5 (R168). VBAK_LOSS marks
the loss and what it spoils; MAIN_SUPPLY_LOSS stops the part; the DRAM keeps its content only in self-refresh on VBAK (R64, R74,
R75, R167). What a lost DRAM holds is a free value, and where the content of the retained domain goes is the model's choice
(notes/assumptions/8.md, 10.md, 34.md). -/
def Obligations.HoldAndSupplies : Prop :=
  (∀ s : State,
     (∀ x, Takes .restart x s → exec .restart s = .next { s with
       power := { s.power with phase := .holding, restartHold := true }
       sst := { s.sst with selfRefresh := true }
       rpu := { s.rpu with reserved := false }
       cmu := { s.cmu with
         executing := none
         progress := { number := x.number, kind := x.kind, unitCount := 1, unitsApplied := 1
                       endMethod := .complete } } }) ∧
     (s.power.phase = .running → s.cmu.executing = none → exec .holdEntry s = .next { s with
       power := { s.power with phase := .holding, restartHold := false }
       sst := { s.sst with selfRefresh := true } }) ∧
     (s.power.phase = .running → s.cmu.executing ≠ none → exec .holdEntry s = .next { s with
       power := { s.power with phase := .finishing, restartHold := false } }) ∧
     (s.power.phase ≠ .running → exec .holdEntry s = .next s) ∧
     (∀ level, s.power.phase = .holding ∨ s.power.phase = .finishing →
       exec (.retainedCheckConfirmed level) s = .next { s with
         power := { s.power with phase := .held, pwarnAtStop := level }, sst := { s.sst with selfRefresh := true }
         out := { s.out with sending := none } }) ∧
     (∀ level, s.power.phase ≠ .holding → s.power.phase ≠ .finishing →
       exec (.retainedCheckConfirmed level) s = .next s)) ∧
  (∀ (i : Instr) (x : Executing) (s : State), unitRow i = true → InHand i x s → ∃ t, exec i s = .next t ∧
     t.power = { s.power with phase := .holding } ∧ t.sst.selfRefresh = true ∧ t.cmu.executing = none ∧
     t.cmu.progress = (if x.todo.tail = [] then
         { number := x.number, kind := x.kind, unitCount := x.unitCount, unitsApplied := x.unitCount
           endMethod := .complete }
       else { s.cmu.progress with
         unitsApplied := s.cmu.progress.unitsApplied + 1
         endMethod := if x.kind = 15 then .prefixUnsafe else .prefixSafe }) ∧
     (∀ e ∈ t.rpu.entries, e ∈ s.rpu.entries ∨
       ((∀ n k res reason detail codes, e.body ≠ .result n k res reason detail codes) ∧
         ∀ n part parts data, e.body ≠ .readback n part parts data)) ∧
     (∀ u, u = (if i = .restart then { s with rpu := { s.rpu with reserved := false } } else unitEffect i s) →
       t = { u with power := t.power, cmu := { u.cmu with executing := none, progress := t.cmu.progress }
                    sst := { u.sst with selfRefresh := true } })) ∧
  (∀ (i : Instr) (x : Executing) (s : State), unitRow i = true → i ≠ .restart → Takes i x s →
     (∃ c, exec i s = .next (endItem x c (unitEffect i s))) ∨ ∃ o, exec i s = .next (endWhole x o (unitEffect i s))) ∧
  (∀ (i : Instr) (p : Power) (s : State), (∀ pairs, i ≠ .setSettings pairs) →
     unitEffect i { s with power := p } = { unitEffect i s with power := p }) ∧
  (∀ (pairs : List (Nat × Nat)) (s u : State), s.power.phase = .finishing →
     u = unitEffect (.setSettings pairs) { s with power := { s.power with phase := .running } } →
     unitEffect (.setSettings pairs) s = { s with settings := u.settings, siu := u.siu }) ∧
  (∀ s : State,
     (s.power.phase ≠ .held ∨ s.power.restartHold = false ∨ s.power.pwarnAtStop = true →
       exec .restartSelfReset s = .next s) ∧
     (∀ spoiled, ∃ t, exec (.vbakLoss spoiled) s = .next t ∧
       t = { s with power := { s.power with vbakLost := true, checkHolds := s.power.checkHolds && !spoiled }
                    sst := { s.sst with rows := t.sst.rows, records := t.sst.records }, frees := t.frees } ∧
       (s.power.phase ≠ .unpowered → t.sst = s.sst ∧ t.frees = s.frees)) ∧
     (∀ spoiled, s.power.phase = .unpowered → exec (.mainSupplyLoss spoiled) s = .next s) ∧
     (∀ spoiled, s.power.phase ≠ .unpowered → ∃ t, exec (.mainSupplyLoss spoiled) s = .next t ∧
       t = { s with power := { s.power with phase := .unpowered, checkHolds := t.power.checkHolds }
                    out := { s.out with sending := none }
                    sst := { s.sst with rows := t.sst.rows, records := t.sst.records }, frees := t.frees } ∧
       t.power.checkHolds = (s.power.checkHolds && !(spoiled && s.streaming)) ∧
       (s.sst.selfRefresh = true → s.power.vbakLost = false → t.sst = s.sst ∧ t.frees = s.frees)))

/-- From the confirmation of the retained check word to the next reset nothing retained changes (R28, R144, R158, R167). Before
it, in hold, no unit is taken but the one in hand, no command starts, no walk steps and no boundary or advance is presented
(R28), so a row that is no unit changes the retained domain at the emission of a grant message or of a report alone, and there
only the epoch records or the progress record (R48, R74, R96, R127, R144, R167). That a VBAK_LOSS in hold leaves the retained
content in State until the next start is the model's choice (notes/assumptions/10.md). -/
def Obligations.HoldFreezesRetained : Prop :=
  ∀ (s t : State), s.power.phase ≠ .running → step s = .next t →
    (∀ cut, s.pending.head? ≠ some (.resetn cut)) → s.pending.head? ≠ some .restartSelfReset →
    t.power.phase ≠ .running ∧
    (s.power.phase = .held ∨ s.power.phase = .unpowered → sameRetained s t) ∧
    ((∀ i, s.pending.head? = some i → unitRow i = false) ∨ s.power.phase = .holding →
      t.siu.pidMap = s.siu.pidMap ∧ t.mtb = s.mtb ∧
      (s.pending.head? ≠ some .grantMessageEmitted → ∀ m, t.record m = s.record m) ∧ t.sst.poison = s.sst.poison ∧
      t.sst.house = s.sst.house ∧ t.sst.signature = s.sst.signature ∧ t.cmu.lastAccepted = s.cmu.lastAccepted ∧
      t.cmu.rootKey = s.cmu.rootKey ∧ t.settings = s.settings ∧ t.rpu.fault = s.rpu.fault ∧
      (s.pending.head? ≠ some .reportPacketEmitted → t.cmu.progress = s.cmu.progress))

/-- A reset where the retained check word holds and VBAK was not lost is WARM: the retained domain is as it was, the volatile
state is as after a COLD reset, the store verifies from cohort 0, and the RESTART report comes first. A RESETN that cuts a
DRAM write short leaves the DRAM a free value (R16, R29, R49, R64, R75, R120, R128, R145, R155, R167 to R169, R177;
notes/assumptions/8.md, 37.md). The divider, the next packet start, the silence, the output, the packet in build and the level of
PWARN after a reset are the model's choice (35.md), and so is that the record of packets sent stays (30.md). -/
def Obligations.WarmStartKeepsRetained : Prop :=
  ∀ (s : State) (i : Instr) (cut : Cut) (cause : RestartCause), s.power.checkHolds = true → s.power.vbakLost = false →
    ((i = .resetn cut ∧ cause = .resetn ∧ (cut = .retainedWrite → s.streaming = false)) ∨
      (i = .restartSelfReset ∧ cause = .command ∧ cut = .nothing ∧
        s.power.phase = .held ∧ s.power.restartHold = true ∧ s.power.pwarnAtStop = false)) →
    ∃ t, exec i s = .next t ∧
      t.siu = { Siu.reset with pidMap := s.siu.pidMap } ∧
      t.tbu = { Tbu.reset with periodLength := s.settings.cryptoPeriod * 90000 } ∧
      (∀ m, t.slot m = { s.slot m with staged := none }) ∧
      (∀ m, (s.record m = none → t.record m = none) ∧ ∀ r, s.record m = some r → t.record m = some
        { r with passesLeft := if r.rollover = .sweeping then s.settings.rolloverPasses else r.passesLeft }) ∧
      (∀ m, (t.epochSlot m).ageTicks = 0) ∧
      (∀ m, t.wordTimer m = { due := none, timer := if (s.slot m).state.words then some 0 else none }) ∧
      t.sst = { s.sst with rows := t.sst.rows, records := t.sst.records, store := .verifying, accumulator := 0
                           walkQueue := [], selfRefresh := false
                           walk := some { kind := .verify, cohort := 0, rowSkips := 0, seatSkips := 0 } } ∧
      (cut ≠ .storeWrite ∨ s.taking = false → t.sst.rows = s.sst.rows ∧ t.sst.records = s.sst.records) ∧
      t.gcr = { pointer := 0, buffer := [], closing := false, ready := none, fresh := [], building := [] } ∧
      t.ina = { words := t.ina.words, credits := 0, freshRun := 0, statusDue := false, statusTimer := 0
                paceTimer := if s.settings.grantPace = 0 then none else some 0 } ∧
      t.cmu = { s.cmu with queue := [], executing := none } ∧ t.settings = s.settings ∧
      t.rpu = { entries := [{ stamp := 0, body := .restart cause s.cmu.lastAccepted s.cmu.progress },
                            { stamp := 0, body := .storeVerifying }]
                reserved := false, counters := Counters.zero, fault := s.rpu.fault } ∧
      t.out = { positions := [], sending := none, sent := s.out.sent } ∧ t.power = Power.reset

/-- A reset where the retained check word fails or VBAK was lost is COLD: every field is as after a COLD reset but for what no
reset reaches (the DRAM, the unit key, the outside's record and counters of the model); a failed check is the first fault, its
report the first of the start (R16, R29, R49, R75, R128, R145, R155, R168, R169, R177, R178;
notes/assumptions/8.md, 30.md, 37.md). The values that no reset table gives (divider, next packet start, silence, output, packet in
build, scan accumulator, level of PWARN) are the model's choice (35.md). -/
def Obligations.ColdStartClears : Prop :=
  ∀ (s : State) (i : Instr) (cut : Cut),
    (i = .resetn cut ∨ (i = .restartSelfReset ∧ cut = .nothing ∧ s.power.phase = .held ∧ s.power.restartHold = true ∧
      s.power.pwarnAtStop = false)) →
    (s.power.vbakLost = true ∨ s.power.checkHolds = false ∨ (cut = .retainedWrite ∧ s.streaming = true)) →
    ∃ t, exec i s = .next t ∧
      t = { State.reset with
        sst := { Sst.reset with rows := t.sst.rows, records := t.sst.records }
        cmu := { Cmu.reset with unitKey := s.cmu.unitKey }
        out := { positions := [], sending := none, sent := s.out.sent }
        rpu := t.rpu, draws := s.draws, frees := t.frees, pending := s.pending } ∧
      (cut ≠ .storeWrite ∨ s.taking = false →
        t.sst.rows = s.sst.rows ∧ t.sst.records = s.sst.records ∧ t.frees = s.frees) ∧
      (s.power.checkHolds = false ∨ (cut = .retainedWrite ∧ s.streaming = true) →
        t.rpu = { Rpu.reset with
          fault := { FaultRecord.clear with held := true, cls := .retainedCheck }
          entries := [{ stamp := 0, body := .faultFirst { FaultRecord.clear with held := true, cls := .retainedCheck } },
                      { stamp := 0, body := .storeClearing }] }) ∧
      (s.power.checkHolds = true → (cut ≠ .retainedWrite ∨ s.streaming = false) → t.rpu = Rpu.reset)

/-! ## Laws kept by every step -/

/-- The stored memories stay canonical and within the store's size, the settings within their ranges, and the walk within the
store, over every step (R50, R60, R66, R163). -/
def Obligations.MemoryStaysLawful : Prop :=
  ∀ s t : State, s.memoryLawful → step s = .next t → t.memoryLawful

/-- The queues and lists stay within the room the spec gives them and hold nothing twice, over every step (R52, R57, R135,
R138, R150, R158, R159, R170). -/
def Obligations.QueuesStayLawful : Prop :=
  ∀ s t : State, s.queuesLawful → step s = .next t → t.queuesLawful

/-- Every slot's live record, end mark, epoch record and Word Message state stay in agreement with its state, over every step
(R30, R31, R37, R42, R43, R109, R115 to R125, R147). -/
def Obligations.SlotsStayLawful : Prop :=
  ∀ s t : State, s.slotsLawful → step s = .next t → t.slotsLawful

/-- The PID Map keeps every claimed identifier for its slot, the three marks for their settings and 0x1FFF as NULL, over every
step from a state whose slots agree with their walks, as SlotsStayLawful keeps it (R5, R6, R7, R8). -/
def Obligations.PidsStayLawful : Prop :=
  ∀ s t : State, memoryWf s = true → s.slotsLawful → s.pidsLawful → step s = .next t → t.pidsLawful

/-- A slot's epoch, current key, words and phase change at a crypto period boundary and at no other step, for as long as the slot has an
epoch record (R109, R111, R115). -/
def Obligations.EpochChangesOnlyAtBoundary : Prop :=
  ∀ (s t : State) (m : SlotId) (r r' : EpochRecord), s.slotsLawful → step s = .next t →
    s.pending.head? ≠ some .cryptoPeriodBoundary → s.record m = some r → t.record m = some r' →
    r'.epoch = r.epoch ∧ r'.currentKey = r.currentKey ∧
    r'.phase = r.phase ∧ r'.evenWord = r.evenWord ∧ r'.oddWord = r.oddWord

/-- The last accepted number never falls but at a COLD start, where it is 0: a RESETN, or a RESTART's own reset, with VBAK lost or
the retained check word failing, a RESETN that cuts a retained write short among them (R75, R157, R167 to R169;
notes/assumptions/37.md). -/
def Obligations.LastAcceptedNeverFalls : Prop :=
  ∀ s t : State, step s = .next t →
    s.cmu.lastAccepted ≤ t.cmu.lastAccepted ∨
      (t.cmu.lastAccepted = 0 ∧
        ((∃ cut, s.pending.head? = some (.resetn cut) ∧ (s.power.vbakLost = true ∨ s.power.checkHolds = false ∨
            (cut = .retainedWrite ∧ s.streaming = true))) ∨
         (s.pending.head? = some .restartSelfReset ∧ s.power.phase = .held ∧ s.power.restartHold = true ∧
            s.power.pwarnAtStop = false ∧ (s.power.vbakLost = true ∨ s.power.checkHolds = false))))

/-- The state after reset is lawful: what the reset tables give satisfies every law above (R16, R29, R49, R75, R128, R145,
R155, R169, R177). -/
def Obligations.ResetIsLawful : Prop :=
  State.reset.memoryLawful ∧ State.reset.queuesLawful ∧ State.reset.slotsLawful ∧ State.reset.pidsLawful ∧
    State.reset.sst.store = .clearing ∧ walksAt .clear 0 State.reset ∧ State.reset.tbu.state = .noTime ∧
    State.reset.siu.lock = .hunt ∧ State.reset.cmu.rootKey = 0 ∧ State.reset.cmu.lastAccepted = 0 ∧
    State.reset.pending = []

/-! ## Integrity and reports -/

/-- A checked read that fails its digest on an item not listed, of a row or of a seat's record: with room, the item joins the
Poison List and its class goes to the Report Unit, and a row's loss, not a record's, sends the CLOSED slots a revocation notice
(R51 to R53); without room in READY the store is FAILED (R52, R65); without room in VERIFYING the verify is LOST, what it
settles is settled and the store clears (R52, R64); in FAILED nothing is listed (R52); no read takes place in CLEARING (R61). A
fault fills a CLEAR Fault Record, whose index kind only POISON_OVERFLOW fills, and counts and marks on a HELD one (R175); the
number and units of a fault are the model's choice where a command is in execution and the fault is not its own
(notes/assumptions/22.md). That the FAULT report of an overflow stands behind what it brings about is deduced
(notes/assumptions/28.md). -/
def Obligations.FailedReadPoisons : Prop :=
  (∀ (k : ItemKind) (i : Nat) (s : State) (cls : FaultClass),
    (s.rpu.fault.held = false → takeFault cls i k s =
      (let f : FaultRecord :=
        { held := true, cls := cls, index := i, indexKind := if cls = .poisonOverflow then k else .row
          number := if s.cmu.executing.isSome then s.cmu.progress.number else 0
          units := if s.cmu.executing.isSome then s.cmu.progress.unitsApplied else 0
          time := s.now.getD 0, marks := 0, further := 0 }
       offer (.faultFirst f) { s with rpu := { s.rpu with fault := f } })) ∧
    (s.rpu.fault.held = true → ∀ n, n = (if s.rpu.fault.further < 255 then s.rpu.fault.further + 1 else s.rpu.fault.further) →
      (s.rpu.fault.marks.getLsbD cls.code = true →
        takeFault cls i k s = { s with rpu := { s.rpu with fault := { s.rpu.fault with further := n } } }) ∧
      (s.rpu.fault.marks.getLsbD cls.code = false → takeFault cls i k s = offer (.faultFurther cls i)
        { s with rpu := { s.rpu with fault :=
          { s.rpu.fault with further := n, marks := s.rpu.fault.marks ||| (1 <<< cls.code) } } }))) ∧
  (∀ (k : ItemKind) (i : Nat) (s t : State), isPoisoned s k i = false →
    (match k with
      | .row => rowDigest (rowAt s i).content ≠ (rowAt s i).digest ∧ readRow i s = (none, t)
      | .seat => recordDigest (recordAt s i).content ≠ (recordAt s i).digest ∧ readRecord i s = (none, t)) →
    (storeOpen s → s.sst.poison.length < 64 →
      t.sst = { s.sst with poison := s.sst.poison ++ [{ kind := k, index := i }] } ∧
      t = { takeFault (match k with | .row => .rowCheck | .seat => .seatCheck) i k s with sst := t.sst, epc := t.epc } ∧
      ∀ m, (t.epochSlot m).ageTicks = (s.epochSlot m).ageTicks ∧ t.record m = (s.record m).map fun r =>
        if k = .row ∧ s.grantingWith .closedPolicy m = true then r.notice (r.issued || s.carouselHolds m r.epoch) else r) ∧
    (s.sst.store = .ready → 64 ≤ s.sst.poison.length →
      t = takeFault .poisonOverflow i k (storeFail i s) ∧
      storeFail i s = { offer (.storeFailed i) s with sst := { s.sst with store := .failed }, epc := (storeFail i s).epc } ∧
      ∀ m, (storeFail i s).record m = (s.record m).map fun r =>
        if s.grantingWith .closedPolicy m = true then r.notice (r.issued || s.carouselHolds m r.epoch) else r) ∧
    (s.sst.store = .verifying → 64 ≤ s.sst.poison.length → ∃ u, t = takeFault .poisonOverflow i k u ∧
      reports (.storeLostOverflow i s.sst.signature :: slotList.flatMap (cutReports s) ++ [.storeClearing]) s u ∧
      t.sst = { s.sst with poison := [], signature := 0, store := .clearing, walkQueue := []
                           walk := some { kind := .clear, cohort := 0, rowSkips := 0, seatSkips := 0 } } ∧
      (∀ m, (t.slot m).state = (match (s.slot m).state with | .wiping => .empty | .abandoned => .closed | x => x)) ∧
      (∀ m, (s.slot m).state ≠ .wiping → (s.slot m).state ≠ .abandoned → t.slot m = s.slot m) ∧
      ∀ m, s.granting m = true → t.record m = (s.record m).map fun r =>
        if s.grantingWith .closedPolicy m = true then r.notice (r.issued || s.carouselHolds m r.epoch) else r) ∧
    (s.sst.store = .failed → t = takeFault .poisonOverflow i k s)) ∧
  (∀ c s, s.sst.store = .clearing → readRow c s = (none, s)) ∧
  (∀ seat s, s.sst.store = .clearing → readRecord seat s = (none, s))

/-- A report is queued while entries and reservation leave a place (R170); in a full queue a routine report is dropped, and an
urgent one takes the place of the routine entry that joined last, whose command, if it was a RESULT, is no longer described by
the progress record (R166, R171); every drop is counted (R171). A STALE RESULT is no executed command's and leaves the progress
record as it is, which is the model's reading (notes/assumptions/19.md). -/
def Obligations.ReportsAreQueued : Prop :=
  (∀ number kind res reason detail codes,
    (ReportBody.result number kind res reason detail codes).resultOf = if res = .stale then none else some number) ∧
  ∀ (b : ReportBody) (s : State),
    (s.rpu.places < 64 → offer b s = { s with rpu := { s.rpu with
      entries := s.rpu.entries ++ [{ stamp := s.now.getD 0, body := b }] } }) ∧
    (64 ≤ s.rpu.places → b.urgent = false → ∃ t, offer b s = t ∧ t.rpu.entries = s.rpu.entries ∧
      t = { s with rpu := { s.rpu with counters := { s.rpu.counters with
        droppedReports := if s.rpu.counters.droppedReports < 65535 then s.rpu.counters.droppedReports + 1
                          else s.rpu.counters.droppedReports } } }) ∧
    (∀ (l r : List ReportEntry) (x : ReportEntry), 64 ≤ s.rpu.places → b.urgent = true → s.rpu.entries = l ++ x :: r →
      x.body.urgent = false → (∀ e ∈ r, e.body.urgent = true) → ∃ t, offer b s = t ∧
      t.rpu.entries = l ++ r ++ [{ stamp := s.now.getD 0, body := b }] ∧
      t.rpu.counters.droppedReports = (if s.rpu.counters.droppedReports < 65535 then
        s.rpu.counters.droppedReports + 1 else s.rpu.counters.droppedReports) ∧
      (∀ n, x.body.resultOf = some n → s.cmu.progress.number = n → t.cmu.progress.endMethod = .none) ∧
      (x.body.resultOf ≠ some s.cmu.progress.number → t.cmu = s.cmu)) ∧
    (64 ≤ s.rpu.places → b.urgent = true → (∀ e ∈ s.rpu.entries, e.body.urgent = true) →
      offer b s = { s with rpu := { s.rpu with counters := { s.rpu.counters with
        droppedReports := if s.rpu.counters.droppedReports < 65535 then s.rpu.counters.droppedReports + 1
                          else s.rpu.counters.droppedReports } } })
end

