-- ==== Sys2Proof/Laws/Formats.lean ====
section
/-! SUPPORT. The fixed widths of the fields that the part sends, filled or not (R181). -/

namespace Sys2Proof.Machine

@[simp] theorem beBytes_length (n v : Nat) : (beBytes n v).length = n := by
  induction n with
  | zero => rfl
  | succ n ih => simp [beBytes, ih]

@[simp] theorem endMarkBytes_length (mark : Option StreamTime) : (endMarkBytes mark).length = 5 := by
  cases mark <;> simp [endMarkBytes]

@[simp] theorem epochRecordBytes_length (r : Option EpochRecord) : (epochRecordBytes r).length = 9 := by
  cases r <;> simp [epochRecordBytes, EpochRecord.bytes]

@[simp] theorem queryRowBytes_length (i : Fin 32) (row : Option RowImage) : (queryRowBytes i row).length = 19 := by
  cases row <;> simp [queryRowBytes, slotList]

/-- The paid values of a record take two bytes each. -/
@[simp] theorem paidBytes_length (l : List (BitVec 16)) : (l.flatMap fun v => beBytes 2 v.toNat).length = 2 * l.length := by
  induction l with
  | nil => rfl
  | cons v l ih => rw [List.flatMap_cons, List.length_append, ih, beBytes_length, List.length_cons]; omega

@[simp] theorem queryRecordBytes_length (q : Option RecordImage) : (queryRecordBytes q).length = 36 := by
  cases q with
  | none => rfl
  | some q =>
    rw [queryRecordBytes, List.length_append, List.length_append, List.length_append, paidBytes_length]
    simp

end Sys2Proof.Machine
end

