-- ==== Sys2Proof/Laws/Memory.lean ====
section
/-! SUPPORT. Sparse storage: reading back a write, and that every operation keeps the canonical form. -/

namespace Sys2Proof.Machine

section Reads
variable {α : Type} {d : α} {l : List (Nat × α)} {k j i : Nat} {v : α}

@[simp] theorem sparseGet_insert_self : sparseGet d (sparseInsert l k v) k = v := by
  induction l with
  | nil => simp [sparseInsert, sparseGet]
  | cons p rest ih =>
    obtain ⟨i, w⟩ := p
    simp only [sparseInsert]
    split
    · simp [sparseGet]
    · split
      · simp [sparseGet]
      · simp_all [sparseGet]

theorem sparseGet_insert_ne (h : j ≠ k) : sparseGet d (sparseInsert l k v) j = sparseGet d l j := by
  induction l with
  | nil => simp [sparseInsert, sparseGet, h.symm]
  | cons p rest ih =>
    obtain ⟨i, w⟩ := p
    simp only [sparseInsert]
    split
    · next e => subst e; simp [sparseGet, h.symm]
    · split
      · simp [sparseGet, h.symm]
      · simp [sparseGet, ih]

theorem sparseGet_erase_ne (h : j ≠ k) : sparseGet d (sparseErase l k) j = sparseGet d l j := by
  induction l with
  | nil => rfl
  | cons p rest ih =>
    obtain ⟨i, w⟩ := p
    simp only [sparseErase]
    split
    · next e => subst e; simp [sparseGet, h.symm]
    · split
      · rfl
      · simp [sparseGet, ih]

/-- Every key of a rising list is above its lower bound. -/
theorem sparseRising_above (h : sparseRising (some i) l = true) : ∀ p ∈ l, i < p.1 := by
  induction l generalizing i with
  | nil => simp
  | cons q rest ih =>
    obtain ⟨j, w⟩ := q
    simp only [sparseRising, Bool.and_eq_true, decide_eq_true_eq] at h
    intro p hp
    rcases List.mem_cons.mp hp with rfl | hp
    · exact h.1
    · exact Nat.lt_trans h.1 (ih h.2 p hp)

/-- A key at or below the lower bound of a rising list is not listed. -/
theorem sparseGet_below (h : sparseRising (some i) l = true) (hk : k ≤ i) : sparseGet d l k = d := by
  induction l generalizing i with
  | nil => rfl
  | cons q rest ih =>
    obtain ⟨j, w⟩ := q
    have hj := sparseRising_above h (j, w) (by simp)
    simp only [sparseRising, Bool.and_eq_true] at h
    simp only [sparseGet]
    rw [if_neg (by simp at hj; omega), ih h.2 (by simp at hj; omega)]

theorem sparseGet_erase_self {low : Option Nat} (h : sparseRising low l = true) : sparseGet d (sparseErase l k) k = d := by
  induction l generalizing low with
  | nil => rfl
  | cons q rest ih =>
    obtain ⟨j, w⟩ := q
    simp only [sparseRising, Bool.and_eq_true] at h
    simp only [sparseErase]
    split
    · next e => exact sparseGet_below h.2 (by omega)
    · split
      · next hlt => simp only [sparseGet]; rw [if_neg (by omega), sparseGet_below h.2 (by omega)]
      · next hne _ => simp only [sparseGet]; rw [if_neg hne, ih h.2]

end Reads

section Form
variable {α : Type} {d : α} {l : List (Nat × α)} {k : Nat} {v : α} {low : Option Nat}

/-- The bound that a key must exceed. -/
def aboveLow (low : Option Nat) (k : Nat) : Prop := ∀ i, low = some i → i < k

theorem sparseRising_cons {j : Nat} {w : α} :
    sparseRising low ((j, w) :: l) = true ↔ aboveLow low j ∧ sparseRising (some j) l = true := by
  cases low <;> simp [sparseRising, aboveLow]

theorem sparseRising_mono {i j : Nat} (h : sparseRising (some j) l = true) (hij : i ≤ j) :
    sparseRising (some i) l = true := by
  cases l with
  | nil => rfl
  | cons q rest =>
    rw [sparseRising_cons] at h ⊢
    exact ⟨fun x hx => by cases hx; exact Nat.lt_of_le_of_lt hij (h.1 j rfl), h.2⟩

theorem sparseRising_low {j : Nat} (h : sparseRising (some j) l = true) (hlow : aboveLow low j) :
    sparseRising low l = true := by
  cases l with
  | nil => cases low <;> rfl
  | cons q rest =>
    rw [sparseRising_cons] at h ⊢
    exact ⟨fun x hx => Nat.lt_trans (hlow x hx) (h.1 j rfl), h.2⟩

theorem sparseRising_insert (h : sparseRising low l = true) (hk : aboveLow low k) :
    sparseRising low (sparseInsert l k v) = true := by
  induction l generalizing low with
  | nil => rw [sparseInsert, sparseRising_cons]; exact ⟨hk, rfl⟩
  | cons q rest ih =>
    obtain ⟨j, w⟩ := q
    rw [sparseRising_cons] at h
    simp only [sparseInsert]
    split
    · next e => subst e; rw [sparseRising_cons]; exact h
    · split
      · next hlt =>
        rw [sparseRising_cons, sparseRising_cons]
        exact ⟨hk, ⟨fun x hx => by cases hx; exact hlt, h.2⟩⟩
      · next hne hge =>
        rw [sparseRising_cons]
        exact ⟨h.1, ih h.2 (fun x hx => by cases hx; omega)⟩

theorem sparseRising_erase (h : sparseRising low l = true) : sparseRising low (sparseErase l k) = true := by
  induction l generalizing low with
  | nil => exact h
  | cons q rest ih =>
    obtain ⟨j, w⟩ := q
    rw [sparseRising_cons] at h
    simp only [sparseErase]
    split
    · exact sparseRising_low h.2 h.1
    · split
      · rw [sparseRising_cons]; exact h
      · rw [sparseRising_cons]; exact ⟨h.1, ih h.2⟩

theorem mem_sparseErase {p : Nat × α} (h : p ∈ sparseErase l k) : p ∈ l := by
  induction l with
  | nil => exact h
  | cons q rest ih =>
    obtain ⟨j, w⟩ := q
    simp only [sparseErase] at h
    split at h
    · exact List.mem_cons_of_mem _ h
    · split at h
      · exact h
      · rcases List.mem_cons.mp h with rfl | h
        · exact List.mem_cons_self
        · exact List.mem_cons_of_mem _ (ih h)

theorem mem_sparseInsert {p : Nat × α} (h : p ∈ sparseInsert l k v) : p = (k, v) ∨ p ∈ l := by
  induction l with
  | nil => simpa [sparseInsert] using h
  | cons q rest ih =>
    obtain ⟨j, w⟩ := q
    simp only [sparseInsert] at h
    split at h
    · rcases List.mem_cons.mp h with rfl | h
      · exact .inl rfl
      · exact .inr (List.mem_cons_of_mem _ h)
    · split at h
      · rcases List.mem_cons.mp h with rfl | h
        · exact .inl rfl
        · exact .inr h
      · rcases List.mem_cons.mp h with rfl | h
        · exact .inr List.mem_cons_self
        · exact (ih h).imp id (List.mem_cons_of_mem _)

variable [DecidableEq α]

theorem sparseWf_iff : sparseWf d l = true ↔ sparseRising none l = true ∧ ∀ p ∈ l, p.2 ≠ d := by
  simp [sparseWf]

/-- What a write does to a canonical store: the key reads the value, every other key reads as before. -/
theorem sparseGet_set (h : sparseWf d l = true) (k j : Nat) (v : α) :
    sparseGet d (sparseSet d l k v) j = if j = k then v else sparseGet d l j := by
  rw [sparseWf_iff] at h
  unfold sparseSet
  split
  · next e =>
    split
    · next e' => subst e'; rw [sparseGet_erase_self h.1, e]
    · next e' => exact sparseGet_erase_ne e'
  · split
    · next e' => subst e'; exact sparseGet_insert_self
    · next e' => exact sparseGet_insert_ne e'

/-- Any other key reads as before, canonical or not. -/
theorem sparseGet_set_ne {j : Nat} (h : j ≠ k) : sparseGet d (sparseSet d l k v) j = sparseGet d l j := by
  unfold sparseSet
  split
  · exact sparseGet_erase_ne h
  · exact sparseGet_insert_ne h

/-- A write keeps the canonical form. -/
theorem sparseWf_set (h : sparseWf d l = true) (k : Nat) (v : α) : sparseWf d (sparseSet d l k v) = true := by
  rw [sparseWf_iff] at h ⊢
  unfold sparseSet
  split
  · exact ⟨sparseRising_erase h.1, fun p hp => h.2 p (mem_sparseErase hp)⟩
  · next hv =>
    refine ⟨sparseRising_insert h.1 (fun x hx => by cases hx), fun p hp => ?_⟩
    rcases mem_sparseInsert hp with rfl | hp
    · exact hv
    · exact h.2 p hp

/-- A write below a bound keeps every key below it. -/
theorem sparseBound_set {n : Nat} (h : ∀ p ∈ l, p.1 < n) (hk : k < n) (v : α) : ∀ p ∈ sparseSet d l k v, p.1 < n := by
  intro p hp
  unfold sparseSet at hp
  split at hp
  · exact h p (mem_sparseErase hp)
  · rcases mem_sparseInsert hp with rfl | hp
    · exact hk
    · exact h p hp

/-- A store built from a list of writes is canonical and within its bound. -/
theorem sparseOf_wf (n : Nat) (l : List (Nat × α)) :
    sparseWf d (sparseOf d n l) = true ∧ ∀ p ∈ sparseOf d n l, p.1 < n := by
  have : ∀ acc : List (Nat × α), sparseWf d acc = true → (∀ p ∈ acc, p.1 < n) →
      sparseWf d (l.foldl (fun acc p => if p.1 < n then sparseSet d acc p.1 p.2 else acc) acc) = true ∧
      ∀ p ∈ l.foldl (fun acc p => if p.1 < n then sparseSet d acc p.1 p.2 else acc) acc, p.1 < n := by
    induction l with
    | nil => exact fun acc h h' => ⟨h, h'⟩
    | cons q rest ih =>
      intro acc h h'
      rw [List.foldl_cons]
      split
      · next hq => exact ih _ (sparseWf_set h _ _) (sparseBound_set h' hq _)
      · exact ih _ h h'
  exact this [] rfl (by simp)

end Form

/-! ## The store's items -/

/-- Evaluating a number first changes nothing. -/
@[simp] theorem forceNat_eq {α : Type} (c : Nat) (k : Nat → α) : forceNat c k = k c := by cases c <;> rfl

/-- The digest that `clearedRow` carries is that of the zero content (R60). -/
theorem clearedRow_digest : clearedRow.digest = rowDigest zeroRow := by decide +kernel

/-- The digest that `clearedRecord` carries is that of the zero content (R60). -/
theorem clearedRecord_digest : clearedRecord.digest = recordDigest zeroRecord := by decide +kernel

end Sys2Proof.Machine
end

