-- ==== Sys2Proof/Laws/State.lean ====
section
/-! SUPPORT. The small lemmas of State: one for each field of each of its updates, and reading back what an update of a slot
wrote. -/

namespace Sys2Proof.Machine

/-! ## Values per slot -/

@[simp] theorem perSlotSet_get_self {α : Type} (v : PerSlot α) (m : SlotId) (x : α) : (perSlotSet v m x).get m = x := by
  change (v.set m.val x m.isLt)[m.val] = x
  simp

theorem perSlotSet_get_ne {α : Type} (v : PerSlot α) {m n : SlotId} (x : α) (h : n ≠ m) :
    (perSlotSet v m x).get n = v.get n := by
  have : m.val ≠ n.val := fun e => h (Fin.ext e.symm)
  change (v.set m.val x m.isLt)[n.val] = v[n.val]
  simp [this]

@[simp] theorem perSlot_map_get {α β : Type} (v : PerSlot α) (f : α → β) (m : SlotId) : (v.map f).get m = f (v.get m) := by
  change (v.map f)[m.val] = f v[m.val]
  simp

@[simp] theorem perSlot_replicate_get {α : Type} (x : α) (m : SlotId) : Vector.get (Vector.replicate 16 x) m = x := by
  change (Vector.replicate 16 x)[m.val] = x
  simp

theorem perSlotSet_get {α : Type} (v : PerSlot α) (m n : SlotId) (x : α) :
    (perSlotSet v m x).get n = if n = m then x else v.get n := by
  by_cases h : n = m
  · subst h; simp
  · simp [h, perSlotSet_get_ne]

/-! ## Slots of the Match Table -/

@[simp] theorem setSlot_slot_self (s : State) (m : SlotId) (x : MatchSlot) : (s.setSlot m x).slot m = x := by
  simp [State.setSlot, State.slot]

theorem setSlot_slot (s : State) (m n : SlotId) (x : MatchSlot) :
    (s.setSlot m x).slot n = if n = m then x else s.slot n := perSlotSet_get ..

theorem slot_of_mtb {s t : State} (h : t.mtb = s.mtb) (m : SlotId) : t.slot m = s.slot m := by simp [State.slot, h]

theorem live_of_mtb {s t : State} (h : t.mtb = s.mtb) (m : SlotId) : t.live m = s.live m := by simp [State.live, State.slot, h]

theorem granting_of_mtb {s t : State} (h : t.mtb = s.mtb) (m : SlotId) : t.granting m = s.granting m := by
  simp [State.granting, State.slot, h]

/-- Two states with the same fields are the same. -/
theorem State.eq_of {s t : State} (siu : t.siu = s.siu) (out : t.out = s.out) (tbu : t.tbu = s.tbu) (mtb : t.mtb =
    s.mtb) (epc : t.epc = s.epc) (sst : t.sst = s.sst) (gcr : t.gcr = s.gcr) (ina : t.ina = s.ina) (cmu : t.cmu = s.cmu)
    (settings : t.settings = s.settings) (rpu : t.rpu = s.rpu) (power : t.power = s.power) (draws : t.draws = s.draws)
    (frees : t.frees = s.frees) (pending : t.pending = s.pending) :
    t = s := by
  cases s; cases t; simp_all

/-! ## Field by field -/

@[simp] theorem setSlot_siu (s : State) (m : SlotId) (x : MatchSlot) : (s.setSlot m x).siu = s.siu := rfl
@[simp] theorem setSlot_out (s : State) (m : SlotId) (x : MatchSlot) : (s.setSlot m x).out = s.out := rfl
@[simp] theorem setSlot_tbu (s : State) (m : SlotId) (x : MatchSlot) : (s.setSlot m x).tbu = s.tbu := rfl
@[simp] theorem setSlot_epc (s : State) (m : SlotId) (x : MatchSlot) : (s.setSlot m x).epc = s.epc := rfl
@[simp] theorem setSlot_sst (s : State) (m : SlotId) (x : MatchSlot) : (s.setSlot m x).sst = s.sst := rfl
@[simp] theorem setSlot_gcr (s : State) (m : SlotId) (x : MatchSlot) : (s.setSlot m x).gcr = s.gcr := rfl
@[simp] theorem setSlot_ina (s : State) (m : SlotId) (x : MatchSlot) : (s.setSlot m x).ina = s.ina := rfl
@[simp] theorem setSlot_cmu (s : State) (m : SlotId) (x : MatchSlot) : (s.setSlot m x).cmu = s.cmu := rfl
@[simp] theorem setSlot_settings (s : State) (m : SlotId) (x : MatchSlot) : (s.setSlot m x).settings = s.settings := rfl
@[simp] theorem setSlot_rpu (s : State) (m : SlotId) (x : MatchSlot) : (s.setSlot m x).rpu = s.rpu := rfl
@[simp] theorem setSlot_power (s : State) (m : SlotId) (x : MatchSlot) : (s.setSlot m x).power = s.power := rfl
@[simp] theorem setSlot_draws (s : State) (m : SlotId) (x : MatchSlot) : (s.setSlot m x).draws = s.draws := rfl
@[simp] theorem setSlot_frees (s : State) (m : SlotId) (x : MatchSlot) : (s.setSlot m x).frees = s.frees := rfl
@[simp] theorem setSlot_pending (s : State) (m : SlotId) (x : MatchSlot) : (s.setSlot m x).pending = s.pending := rfl

@[simp] theorem setEpochSlot_siu (s : State) (m : SlotId) (x : EpochSlot) : (s.setEpochSlot m x).siu = s.siu := rfl
@[simp] theorem setEpochSlot_out (s : State) (m : SlotId) (x : EpochSlot) : (s.setEpochSlot m x).out = s.out := rfl
@[simp] theorem setEpochSlot_tbu (s : State) (m : SlotId) (x : EpochSlot) : (s.setEpochSlot m x).tbu = s.tbu := rfl
@[simp] theorem setEpochSlot_mtb (s : State) (m : SlotId) (x : EpochSlot) : (s.setEpochSlot m x).mtb = s.mtb := rfl
@[simp] theorem setEpochSlot_sst (s : State) (m : SlotId) (x : EpochSlot) : (s.setEpochSlot m x).sst = s.sst := rfl
@[simp] theorem setEpochSlot_gcr (s : State) (m : SlotId) (x : EpochSlot) : (s.setEpochSlot m x).gcr = s.gcr := rfl
@[simp] theorem setEpochSlot_ina (s : State) (m : SlotId) (x : EpochSlot) : (s.setEpochSlot m x).ina = s.ina := rfl
@[simp] theorem setEpochSlot_cmu (s : State) (m : SlotId) (x : EpochSlot) : (s.setEpochSlot m x).cmu = s.cmu := rfl
@[simp] theorem setEpochSlot_settings (s : State) (m : SlotId) (x : EpochSlot) : (s.setEpochSlot m x).settings = s.settings := rfl
@[simp] theorem setEpochSlot_rpu (s : State) (m : SlotId) (x : EpochSlot) : (s.setEpochSlot m x).rpu = s.rpu := rfl
@[simp] theorem setEpochSlot_power (s : State) (m : SlotId) (x : EpochSlot) : (s.setEpochSlot m x).power = s.power := rfl
@[simp] theorem setEpochSlot_draws (s : State) (m : SlotId) (x : EpochSlot) : (s.setEpochSlot m x).draws = s.draws := rfl
@[simp] theorem setEpochSlot_frees (s : State) (m : SlotId) (x : EpochSlot) : (s.setEpochSlot m x).frees = s.frees := rfl
@[simp] theorem setEpochSlot_pending (s : State) (m : SlotId) (x : EpochSlot) : (s.setEpochSlot m x).pending = s.pending := rfl

@[simp] theorem setRecord_siu (s : State) (m : SlotId) (r : EpochRecord) : (s.setRecord m r).siu = s.siu := rfl
@[simp] theorem setRecord_out (s : State) (m : SlotId) (r : EpochRecord) : (s.setRecord m r).out = s.out := rfl
@[simp] theorem setRecord_tbu (s : State) (m : SlotId) (r : EpochRecord) : (s.setRecord m r).tbu = s.tbu := rfl
@[simp] theorem setRecord_mtb (s : State) (m : SlotId) (r : EpochRecord) : (s.setRecord m r).mtb = s.mtb := rfl
@[simp] theorem setRecord_sst (s : State) (m : SlotId) (r : EpochRecord) : (s.setRecord m r).sst = s.sst := rfl
@[simp] theorem setRecord_gcr (s : State) (m : SlotId) (r : EpochRecord) : (s.setRecord m r).gcr = s.gcr := rfl
@[simp] theorem setRecord_ina (s : State) (m : SlotId) (r : EpochRecord) : (s.setRecord m r).ina = s.ina := rfl
@[simp] theorem setRecord_cmu (s : State) (m : SlotId) (r : EpochRecord) : (s.setRecord m r).cmu = s.cmu := rfl
@[simp] theorem setRecord_settings (s : State) (m : SlotId) (r : EpochRecord) : (s.setRecord m r).settings = s.settings := rfl
@[simp] theorem setRecord_rpu (s : State) (m : SlotId) (r : EpochRecord) : (s.setRecord m r).rpu = s.rpu := rfl
@[simp] theorem setRecord_power (s : State) (m : SlotId) (r : EpochRecord) : (s.setRecord m r).power = s.power := rfl
@[simp] theorem setRecord_draws (s : State) (m : SlotId) (r : EpochRecord) : (s.setRecord m r).draws = s.draws := rfl
@[simp] theorem setRecord_frees (s : State) (m : SlotId) (r : EpochRecord) : (s.setRecord m r).frees = s.frees := rfl
@[simp] theorem setRecord_pending (s : State) (m : SlotId) (r : EpochRecord) : (s.setRecord m r).pending = s.pending := rfl

@[simp] theorem setWordTimer_siu (s : State) (m : SlotId) (x : WordTimer) : (s.setWordTimer m x).siu = s.siu := rfl
@[simp] theorem setWordTimer_out (s : State) (m : SlotId) (x : WordTimer) : (s.setWordTimer m x).out = s.out := rfl
@[simp] theorem setWordTimer_tbu (s : State) (m : SlotId) (x : WordTimer) : (s.setWordTimer m x).tbu = s.tbu := rfl
@[simp] theorem setWordTimer_mtb (s : State) (m : SlotId) (x : WordTimer) : (s.setWordTimer m x).mtb = s.mtb := rfl
@[simp] theorem setWordTimer_epc (s : State) (m : SlotId) (x : WordTimer) : (s.setWordTimer m x).epc = s.epc := rfl
@[simp] theorem setWordTimer_sst (s : State) (m : SlotId) (x : WordTimer) : (s.setWordTimer m x).sst = s.sst := rfl
@[simp] theorem setWordTimer_gcr (s : State) (m : SlotId) (x : WordTimer) : (s.setWordTimer m x).gcr = s.gcr := rfl
@[simp] theorem setWordTimer_cmu (s : State) (m : SlotId) (x : WordTimer) : (s.setWordTimer m x).cmu = s.cmu := rfl
@[simp] theorem setWordTimer_settings (s : State) (m : SlotId) (x : WordTimer) : (s.setWordTimer m x).settings = s.settings := rfl
@[simp] theorem setWordTimer_rpu (s : State) (m : SlotId) (x : WordTimer) : (s.setWordTimer m x).rpu = s.rpu := rfl
@[simp] theorem setWordTimer_power (s : State) (m : SlotId) (x : WordTimer) : (s.setWordTimer m x).power = s.power := rfl
@[simp] theorem setWordTimer_draws (s : State) (m : SlotId) (x : WordTimer) : (s.setWordTimer m x).draws = s.draws := rfl
@[simp] theorem setWordTimer_frees (s : State) (m : SlotId) (x : WordTimer) : (s.setWordTimer m x).frees = s.frees := rfl
@[simp] theorem setWordTimer_pending (s : State) (m : SlotId) (x : WordTimer) : (s.setWordTimer m x).pending = s.pending := rfl

/-! ## Epoch records and Word Message state -/

@[simp] theorem setEpochSlot_epochSlot_self (s : State) (m : SlotId) (x : EpochSlot) : (s.setEpochSlot m x).epochSlot m = x := by
  simp [State.setEpochSlot, State.epochSlot]

theorem setEpochSlot_epochSlot (s : State) (m n : SlotId) (x : EpochSlot) :
    (s.setEpochSlot m x).epochSlot n = if n = m then x else s.epochSlot n := perSlotSet_get ..

theorem setEpochSlot_record (s : State) (m n : SlotId) (x : EpochSlot) :
    (s.setEpochSlot m x).record n = if n = m then x.record else s.record n := by
  rw [State.record, setEpochSlot_epochSlot]; split <;> rfl

@[simp] theorem setEpochSlot_record_self (s : State) (m : SlotId) (x : EpochSlot) : (s.setEpochSlot m x).record m = x.record := by
  simp [setEpochSlot_record]

theorem setRecord_record (s : State) (m n : SlotId) (r : EpochRecord) :
    (s.setRecord m r).record n = if n = m then some r else s.record n := by
  rw [State.setRecord, setEpochSlot_record]

@[simp] theorem setRecord_record_self (s : State) (m : SlotId) (r : EpochRecord) : (s.setRecord m r).record m = some r := by
  simp [setRecord_record]

theorem setWordTimer_wordTimer (s : State) (m n : SlotId) (x : WordTimer) :
    (s.setWordTimer m x).wordTimer n = if n = m then x else s.wordTimer n := perSlotSet_get ..

@[simp] theorem setWordTimer_wordTimer_self (s : State) (m : SlotId) (x : WordTimer) : (s.setWordTimer m x).wordTimer m = x := by
  simp [setWordTimer_wordTimer]

theorem record_of_epc {s t : State} (h : t.epc = s.epc) (m : SlotId) : t.record m = s.record m := by
  simp [State.record, State.epochSlot, h]

theorem wordTimer_of_ina {s t : State} (h : t.ina = s.ina) (m : SlotId) : t.wordTimer m = s.wordTimer m := by
  simp [State.wordTimer, h]

theorem now_of_tbu {s t : State} (h : t.tbu = s.tbu) : t.now = s.now := by simp [State.now, h]

theorem stamp_of_tbu {s t : State} (h : t.tbu = s.tbu) : t.stamp = s.stamp := by simp [State.stamp, State.now, h]

/-- Every slot is in slot order's list. -/
theorem mem_slotList (m : SlotId) : m ∈ slotList := by revert m; decide

end Sys2Proof.Machine
end

