-- ==== Sys2Proof/Laws/Frames.lean ====
section
/-! SUPPORT. Frames of the shared operations: which blocks of State each leaves as they were. -/

namespace Sys2Proof.Machine

/-- A fold whose every step keeps a value keeps it. -/
theorem foldl_keeps {α β γ : Type} (f : α → γ) {g : α → β → α} (h : ∀ a b, f (g a b) = f a) (l : List β) (a : α) :
    f (l.foldl g a) = f a := by
  induction l generalizing a with
  | nil => rfl
  | cons b l ih => rw [List.foldl_cons, ih, h]

/-! ## Reports and notices -/

@[simp] theorem offer_frame (b : ReportBody) (s : State) :
    (offer b s).siu = s.siu ∧ (offer b s).out = s.out ∧ (offer b s).tbu = s.tbu ∧ (offer b s).mtb = s.mtb ∧
    (offer b s).epc = s.epc ∧ (offer b s).sst = s.sst ∧ (offer b s).gcr = s.gcr ∧ (offer b s).ina = s.ina ∧
    (offer b s).settings = s.settings ∧ (offer b s).power = s.power ∧ (offer b s).draws = s.draws ∧
    (offer b s).frees = s.frees ∧ (offer b s).pending = s.pending := by
  unfold offer
  dsimp only
  split
  · simp
  · split
    · split <;> simp
    · simp

@[simp] theorem writeResult_frame (b : ReportBody) (s : State) :
    (writeResult b s).siu = s.siu ∧ (writeResult b s).out = s.out ∧ (writeResult b s).tbu = s.tbu ∧
    (writeResult b s).mtb = s.mtb ∧ (writeResult b s).epc = s.epc ∧ (writeResult b s).sst = s.sst ∧
    (writeResult b s).gcr = s.gcr ∧ (writeResult b s).ina = s.ina ∧ (writeResult b s).cmu = s.cmu ∧
    (writeResult b s).settings = s.settings ∧ (writeResult b s).power = s.power ∧ (writeResult b s).draws = s.draws ∧
    (writeResult b s).frees = s.frees ∧ (writeResult b s).pending = s.pending := by
  exact ⟨rfl, rfl, rfl, rfl, rfl, rfl, rfl, rfl, rfl, rfl, rfl, rfl, rfl, rfl⟩

@[simp] theorem releaseReservation_frame (s : State) :
    (releaseReservation s).siu = s.siu ∧ (releaseReservation s).out = s.out ∧ (releaseReservation s).tbu = s.tbu ∧
    (releaseReservation s).mtb = s.mtb ∧ (releaseReservation s).epc = s.epc ∧ (releaseReservation s).sst = s.sst ∧
    (releaseReservation s).gcr = s.gcr ∧ (releaseReservation s).ina = s.ina ∧ (releaseReservation s).cmu = s.cmu ∧
    (releaseReservation s).settings = s.settings ∧ (releaseReservation s).power = s.power ∧
    (releaseReservation s).draws = s.draws ∧ (releaseReservation s).frees = s.frees ∧
    (releaseReservation s).pending = s.pending := by
  exact ⟨rfl, rfl, rfl, rfl, rfl, rfl, rfl, rfl, rfl, rfl, rfl, rfl, rfl, rfl⟩

@[simp] theorem takeFault_frame (c : FaultClass) (i : Nat) (k : ItemKind) (s : State) :
    (takeFault c i k s).siu = s.siu ∧ (takeFault c i k s).out = s.out ∧ (takeFault c i k s).tbu = s.tbu ∧
    (takeFault c i k s).mtb = s.mtb ∧ (takeFault c i k s).epc = s.epc ∧ (takeFault c i k s).sst = s.sst ∧
    (takeFault c i k s).gcr = s.gcr ∧ (takeFault c i k s).ina = s.ina ∧ (takeFault c i k s).settings = s.settings ∧
    (takeFault c i k s).power = s.power ∧ (takeFault c i k s).draws = s.draws ∧ (takeFault c i k s).frees = s.frees ∧
    (takeFault c i k s).pending = s.pending := by
  unfold takeFault
  dsimp only
  split
  · split <;> simp
  · simp

@[simp] theorem revoke_frame (m : SlotId) (s : State) :
    (revoke m s).siu = s.siu ∧ (revoke m s).out = s.out ∧ (revoke m s).tbu = s.tbu ∧ (revoke m s).mtb = s.mtb ∧
    (revoke m s).sst = s.sst ∧ (revoke m s).gcr = s.gcr ∧ (revoke m s).ina = s.ina ∧ (revoke m s).cmu = s.cmu ∧
    (revoke m s).settings = s.settings ∧ (revoke m s).rpu = s.rpu ∧ (revoke m s).power = s.power ∧
    (revoke m s).draws = s.draws ∧ (revoke m s).frees = s.frees ∧ (revoke m s).pending = s.pending := by
  unfold revoke
  split
  · split <;> simp
  · simp

@[simp] theorem revokeWhere_frame (p : State → SlotId → Bool) (s : State) :
    (revokeWhere p s).siu = s.siu ∧ (revokeWhere p s).out = s.out ∧ (revokeWhere p s).tbu = s.tbu ∧
    (revokeWhere p s).mtb = s.mtb ∧ (revokeWhere p s).sst = s.sst ∧ (revokeWhere p s).gcr = s.gcr ∧
    (revokeWhere p s).ina = s.ina ∧ (revokeWhere p s).cmu = s.cmu ∧ (revokeWhere p s).settings = s.settings ∧
    (revokeWhere p s).rpu = s.rpu ∧ (revokeWhere p s).power = s.power ∧ (revokeWhere p s).draws = s.draws ∧
    (revokeWhere p s).frees = s.frees ∧ (revokeWhere p s).pending = s.pending := by
  refine ⟨?_, ?_, ?_, ?_, ?_, ?_, ?_, ?_, ?_, ?_, ?_, ?_, ?_, ?_⟩ <;> exact foldl_keeps _ (by intro a b; split <;> simp) _ _

@[simp] theorem freshNotice_frame (c : Nat) (m : SlotId) (s : State) :
    (freshNotice c m s).siu = s.siu ∧ (freshNotice c m s).out = s.out ∧ (freshNotice c m s).tbu = s.tbu ∧
    (freshNotice c m s).mtb = s.mtb ∧ (freshNotice c m s).epc = s.epc ∧ (freshNotice c m s).sst = s.sst ∧
    (freshNotice c m s).ina = s.ina ∧ (freshNotice c m s).cmu = s.cmu ∧ (freshNotice c m s).settings = s.settings ∧
    (freshNotice c m s).rpu = s.rpu ∧ (freshNotice c m s).power = s.power ∧ (freshNotice c m s).draws = s.draws ∧
    (freshNotice c m s).frees = s.frees ∧ (freshNotice c m s).pending = s.pending := by
  exact ⟨rfl, rfl, rfl, rfl, rfl, rfl, rfl, rfl, rfl, rfl, rfl, rfl, rfl, rfl⟩

@[simp] theorem freshWhere_frame (c : Nat) (p : State → SlotId → Bool) (s : State) :
    (freshWhere c p s).siu = s.siu ∧ (freshWhere c p s).out = s.out ∧ (freshWhere c p s).tbu = s.tbu ∧
    (freshWhere c p s).mtb = s.mtb ∧ (freshWhere c p s).epc = s.epc ∧ (freshWhere c p s).sst = s.sst ∧
    (freshWhere c p s).ina = s.ina ∧ (freshWhere c p s).cmu = s.cmu ∧ (freshWhere c p s).settings = s.settings ∧
    (freshWhere c p s).rpu = s.rpu ∧ (freshWhere c p s).power = s.power ∧ (freshWhere c p s).draws = s.draws ∧
    (freshWhere c p s).frees = s.frees ∧ (freshWhere c p s).pending = s.pending := by
  refine ⟨?_, ?_, ?_, ?_, ?_, ?_, ?_, ?_, ?_, ?_, ?_, ?_, ?_, ?_⟩ <;> exact foldl_keeps _ (by intro a b; split <;> simp) _ _

/-! ## Changes of slot state -/

@[simp] theorem releaseClaims_frame (m : SlotId) (s : State) :
    (releaseClaims m s).out = s.out ∧ (releaseClaims m s).tbu = s.tbu ∧ (releaseClaims m s).mtb = s.mtb ∧
    (releaseClaims m s).epc = s.epc ∧ (releaseClaims m s).sst = s.sst ∧ (releaseClaims m s).gcr = s.gcr ∧
    (releaseClaims m s).ina = s.ina ∧ (releaseClaims m s).cmu = s.cmu ∧ (releaseClaims m s).settings = s.settings ∧
    (releaseClaims m s).rpu = s.rpu ∧ (releaseClaims m s).power = s.power ∧ (releaseClaims m s).draws = s.draws ∧
    (releaseClaims m s).frees = s.frees ∧ (releaseClaims m s).pending = s.pending := by
  unfold releaseClaims
  split <;> simp

@[simp] theorem departGranting_frame (m : SlotId) (s : State) :
    (departGranting m s).siu = s.siu ∧ (departGranting m s).out = s.out ∧ (departGranting m s).tbu = s.tbu ∧
    (departGranting m s).mtb = s.mtb ∧ (departGranting m s).sst = s.sst ∧ (departGranting m s).gcr = s.gcr ∧
    (departGranting m s).ina = s.ina ∧ (departGranting m s).settings = s.settings ∧
    (departGranting m s).power = s.power ∧ (departGranting m s).draws = s.draws ∧
    (departGranting m s).frees = s.frees ∧ (departGranting m s).pending = s.pending := by
  unfold departGranting
  split
  · simp
  · split <;> simp

@[simp] theorem startWords_frame (m : SlotId) (s : State) :
    (startWords m s).siu = s.siu ∧ (startWords m s).out = s.out ∧ (startWords m s).tbu = s.tbu ∧
    (startWords m s).mtb = s.mtb ∧ (startWords m s).epc = s.epc ∧ (startWords m s).sst = s.sst ∧
    (startWords m s).gcr = s.gcr ∧ (startWords m s).cmu = s.cmu ∧ (startWords m s).settings = s.settings ∧
    (startWords m s).rpu = s.rpu ∧ (startWords m s).power = s.power ∧ (startWords m s).draws = s.draws ∧
    (startWords m s).frees = s.frees ∧ (startWords m s).pending = s.pending := by
  exact ⟨rfl, rfl, rfl, rfl, rfl, rfl, rfl, rfl, rfl, rfl, rfl, rfl, rfl, rfl⟩

@[simp] theorem stopWords_frame (m : SlotId) (s : State) :
    (stopWords m s).siu = s.siu ∧ (stopWords m s).out = s.out ∧ (stopWords m s).tbu = s.tbu ∧
    (stopWords m s).mtb = s.mtb ∧ (stopWords m s).epc = s.epc ∧ (stopWords m s).sst = s.sst ∧
    (stopWords m s).gcr = s.gcr ∧ (stopWords m s).cmu = s.cmu ∧ (stopWords m s).settings = s.settings ∧
    (stopWords m s).rpu = s.rpu ∧ (stopWords m s).power = s.power ∧ (stopWords m s).draws = s.draws ∧
    (stopWords m s).frees = s.frees ∧ (stopWords m s).pending = s.pending := by
  exact ⟨rfl, rfl, rfl, rfl, rfl, rfl, rfl, rfl, rfl, rfl, rfl, rfl, rfl, rfl⟩

@[simp] theorem enterState_frame (m : SlotId) (t : SlotState) (c : StateCause) (s : State) :
    (enterState m t c s).siu = s.siu ∧ (enterState m t c s).out = s.out ∧ (enterState m t c s).tbu = s.tbu ∧
    (enterState m t c s).epc = s.epc ∧ (enterState m t c s).sst = s.sst ∧ (enterState m t c s).gcr = s.gcr ∧
    (enterState m t c s).ina = s.ina ∧ (enterState m t c s).settings = s.settings ∧
    (enterState m t c s).power = s.power ∧ (enterState m t c s).draws = s.draws ∧
    (enterState m t c s).frees = s.frees ∧ (enterState m t c s).pending = s.pending := by
  unfold enterState
  simp

@[simp] theorem enterEnded_frame (m : SlotId) (e : StreamTime) (c : StateCause) (s : State) :
    (enterEnded m e c s).siu = s.siu ∧ (enterEnded m e c s).out = s.out ∧ (enterEnded m e c s).tbu = s.tbu ∧
    (enterEnded m e c s).epc = s.epc ∧ (enterEnded m e c s).sst = s.sst ∧ (enterEnded m e c s).gcr = s.gcr ∧
    (enterEnded m e c s).ina = s.ina ∧ (enterEnded m e c s).settings = s.settings ∧
    (enterEnded m e c s).power = s.power ∧ (enterEnded m e c s).draws = s.draws ∧
    (enterEnded m e c s).frees = s.frees ∧ (enterEnded m e c s).pending = s.pending := by
  unfold enterEnded
  simp

@[simp] theorem enterClosed_frame (m : SlotId) (c : StateCause) (s : State) :
    (enterClosed m c s).out = s.out ∧ (enterClosed m c s).tbu = s.tbu ∧ (enterClosed m c s).sst = s.sst ∧
    (enterClosed m c s).gcr = s.gcr ∧ (enterClosed m c s).settings = s.settings ∧
    (enterClosed m c s).power = s.power ∧ (enterClosed m c s).draws = s.draws ∧ (enterClosed m c s).frees = s.frees ∧
    (enterClosed m c s).pending = s.pending := by
  unfold enterClosed
  dsimp only
  split <;> simp

@[simp] theorem enterEmpty_frame (m : SlotId) (c : StateCause) (s : State) :
    (enterEmpty m c s).siu = s.siu ∧ (enterEmpty m c s).out = s.out ∧ (enterEmpty m c s).tbu = s.tbu ∧
    (enterEmpty m c s).sst = s.sst ∧ (enterEmpty m c s).gcr = s.gcr ∧ (enterEmpty m c s).ina = s.ina ∧
    (enterEmpty m c s).settings = s.settings ∧ (enterEmpty m c s).power = s.power ∧
    (enterEmpty m c s).draws = s.draws ∧ (enterEmpty m c s).frees = s.frees ∧ (enterEmpty m c s).pending = s.pending := by
  unfold enterEmpty
  simp

theorem advanceOnce_frame {m : SlotId} {s t : State} (h : advanceOnce m s = some t) :
    t.out = s.out ∧ t.tbu = s.tbu ∧ t.sst = s.sst ∧ t.gcr = s.gcr ∧ t.settings = s.settings ∧ t.power = s.power ∧
    t.draws = s.draws ∧ t.frees = s.frees ∧ t.pending = s.pending := by
  unfold advanceOnce at h
  split at h
  · split at h
    all_goals first
      | contradiction
      | (split at h
         all_goals first
           | contradiction
           | (simp only [Option.some.injEq] at h; subst h; simp)
           | (split at h
              all_goals first
                | contradiction
                | (simp only [Option.some.injEq] at h; subst h; simp)))
  · contradiction

@[simp] theorem evaluateSlot_frame (m : SlotId) (n : Nat) (s : State) :
    (evaluateSlot m n s).out = s.out ∧ (evaluateSlot m n s).tbu = s.tbu ∧ (evaluateSlot m n s).sst = s.sst ∧
    (evaluateSlot m n s).gcr = s.gcr ∧ (evaluateSlot m n s).settings = s.settings ∧ (evaluateSlot m n s).power = s.power ∧
    (evaluateSlot m n s).draws = s.draws ∧ (evaluateSlot m n s).frees = s.frees ∧
    (evaluateSlot m n s).pending = s.pending := by
  induction n generalizing s with
  | zero => simp [evaluateSlot]
  | succ n ih =>
    unfold evaluateSlot
    split
    · next t h => have := advanceOnce_frame h; simp_all
    · simp

@[simp] theorem evaluateAll_frame (s : State) :
    (evaluateAll s).out = s.out ∧ (evaluateAll s).tbu = s.tbu ∧ (evaluateAll s).sst = s.sst ∧
    (evaluateAll s).gcr = s.gcr ∧ (evaluateAll s).settings = s.settings ∧ (evaluateAll s).power = s.power ∧
    (evaluateAll s).draws = s.draws ∧ (evaluateAll s).frees = s.frees ∧ (evaluateAll s).pending = s.pending := by
  refine ⟨?_, ?_, ?_, ?_, ?_, ?_, ?_, ?_, ?_⟩ <;> exact foldl_keeps _ (by intro a b; simp) _ _

/-! ## The store -/

@[simp] theorem bookDigest_frame (c : Nat) (a b : BitVec 32) (s : State) :
    (bookDigest c a b s).siu = s.siu ∧ (bookDigest c a b s).out = s.out ∧ (bookDigest c a b s).tbu = s.tbu ∧
    (bookDigest c a b s).mtb = s.mtb ∧ (bookDigest c a b s).epc = s.epc ∧ (bookDigest c a b s).gcr = s.gcr ∧
    (bookDigest c a b s).ina = s.ina ∧ (bookDigest c a b s).cmu = s.cmu ∧
    (bookDigest c a b s).settings = s.settings ∧ (bookDigest c a b s).rpu = s.rpu ∧
    (bookDigest c a b s).power = s.power ∧ (bookDigest c a b s).draws = s.draws ∧
    (bookDigest c a b s).frees = s.frees ∧ (bookDigest c a b s).pending = s.pending := by
  exact ⟨rfl, rfl, rfl, rfl, rfl, rfl, rfl, rfl, rfl, rfl, rfl, rfl, rfl, rfl⟩

@[simp] theorem writeRow_frame (c : Nat) (r : RowImage) (s : State) :
    (writeRow c r s).siu = s.siu ∧ (writeRow c r s).out = s.out ∧ (writeRow c r s).tbu = s.tbu ∧
    (writeRow c r s).mtb = s.mtb ∧ (writeRow c r s).epc = s.epc ∧ (writeRow c r s).gcr = s.gcr ∧
    (writeRow c r s).ina = s.ina ∧ (writeRow c r s).cmu = s.cmu ∧ (writeRow c r s).settings = s.settings ∧
    (writeRow c r s).rpu = s.rpu ∧ (writeRow c r s).power = s.power ∧ (writeRow c r s).draws = s.draws ∧
    (writeRow c r s).frees = s.frees ∧ (writeRow c r s).pending = s.pending := by
  exact ⟨rfl, rfl, rfl, rfl, rfl, rfl, rfl, rfl, rfl, rfl, rfl, rfl, rfl, rfl⟩

@[simp] theorem writeRecord_frame (n : Nat) (q : RecordImage) (s : State) :
    (writeRecord n q s).siu = s.siu ∧ (writeRecord n q s).out = s.out ∧ (writeRecord n q s).tbu = s.tbu ∧
    (writeRecord n q s).mtb = s.mtb ∧ (writeRecord n q s).epc = s.epc ∧ (writeRecord n q s).gcr = s.gcr ∧
    (writeRecord n q s).ina = s.ina ∧ (writeRecord n q s).cmu = s.cmu ∧ (writeRecord n q s).settings = s.settings ∧
    (writeRecord n q s).rpu = s.rpu ∧ (writeRecord n q s).power = s.power ∧ (writeRecord n q s).draws = s.draws ∧
    (writeRecord n q s).frees = s.frees ∧ (writeRecord n q s).pending = s.pending := by
  exact ⟨rfl, rfl, rfl, rfl, rfl, rfl, rfl, rfl, rfl, rfl, rfl, rfl, rfl, rfl⟩

@[simp] theorem curePoison_frame (k : ItemKind) (i : Nat) (s : State) :
    (curePoison k i s).siu = s.siu ∧ (curePoison k i s).out = s.out ∧ (curePoison k i s).tbu = s.tbu ∧
    (curePoison k i s).mtb = s.mtb ∧ (curePoison k i s).epc = s.epc ∧ (curePoison k i s).gcr = s.gcr ∧
    (curePoison k i s).ina = s.ina ∧ (curePoison k i s).cmu = s.cmu ∧ (curePoison k i s).settings = s.settings ∧
    (curePoison k i s).rpu = s.rpu ∧ (curePoison k i s).power = s.power ∧ (curePoison k i s).draws = s.draws ∧
    (curePoison k i s).frees = s.frees ∧ (curePoison k i s).pending = s.pending := by
  exact ⟨rfl, rfl, rfl, rfl, rfl, rfl, rfl, rfl, rfl, rfl, rfl, rfl, rfl, rfl⟩

@[simp] theorem nextCohort_frame (s : State) :
    (nextCohort s).siu = s.siu ∧ (nextCohort s).out = s.out ∧ (nextCohort s).tbu = s.tbu ∧
    (nextCohort s).mtb = s.mtb ∧ (nextCohort s).epc = s.epc ∧ (nextCohort s).gcr = s.gcr ∧
    (nextCohort s).ina = s.ina ∧ (nextCohort s).cmu = s.cmu ∧ (nextCohort s).settings = s.settings ∧
    (nextCohort s).rpu = s.rpu ∧ (nextCohort s).power = s.power ∧ (nextCohort s).draws = s.draws ∧
    (nextCohort s).frees = s.frees ∧ (nextCohort s).pending = s.pending := by
  exact ⟨rfl, rfl, rfl, rfl, rfl, rfl, rfl, rfl, rfl, rfl, rfl, rfl, rfl, rfl⟩

@[simp] theorem endWalk_frame (s : State) :
    (endWalk s).siu = s.siu ∧ (endWalk s).out = s.out ∧ (endWalk s).tbu = s.tbu ∧ (endWalk s).mtb = s.mtb ∧
    (endWalk s).epc = s.epc ∧ (endWalk s).gcr = s.gcr ∧ (endWalk s).ina = s.ina ∧ (endWalk s).cmu = s.cmu ∧
    (endWalk s).settings = s.settings ∧ (endWalk s).rpu = s.rpu ∧ (endWalk s).power = s.power ∧
    (endWalk s).draws = s.draws ∧ (endWalk s).frees = s.frees ∧ (endWalk s).pending = s.pending := by
  exact ⟨rfl, rfl, rfl, rfl, rfl, rfl, rfl, rfl, rfl, rfl, rfl, rfl, rfl, rfl⟩

@[simp] theorem skipRow_frame (s : State) :
    (skipRow s).siu = s.siu ∧ (skipRow s).out = s.out ∧ (skipRow s).tbu = s.tbu ∧ (skipRow s).mtb = s.mtb ∧
    (skipRow s).epc = s.epc ∧ (skipRow s).gcr = s.gcr ∧ (skipRow s).ina = s.ina ∧ (skipRow s).cmu = s.cmu ∧
    (skipRow s).settings = s.settings ∧ (skipRow s).rpu = s.rpu ∧ (skipRow s).power = s.power ∧
    (skipRow s).draws = s.draws ∧ (skipRow s).frees = s.frees ∧ (skipRow s).pending = s.pending := by
  exact ⟨rfl, rfl, rfl, rfl, rfl, rfl, rfl, rfl, rfl, rfl, rfl, rfl, rfl, rfl⟩

@[simp] theorem skipSeat_frame (s : State) :
    (skipSeat s).siu = s.siu ∧ (skipSeat s).out = s.out ∧ (skipSeat s).tbu = s.tbu ∧ (skipSeat s).mtb = s.mtb ∧
    (skipSeat s).epc = s.epc ∧ (skipSeat s).gcr = s.gcr ∧ (skipSeat s).ina = s.ina ∧ (skipSeat s).cmu = s.cmu ∧
    (skipSeat s).settings = s.settings ∧ (skipSeat s).rpu = s.rpu ∧ (skipSeat s).power = s.power ∧
    (skipSeat s).draws = s.draws ∧ (skipSeat s).frees = s.frees ∧ (skipSeat s).pending = s.pending := by
  exact ⟨rfl, rfl, rfl, rfl, rfl, rfl, rfl, rfl, rfl, rfl, rfl, rfl, rfl, rfl⟩

@[simp] theorem scanDigest_frame (d : BitVec 32) (s : State) :
    (scanDigest d s).siu = s.siu ∧ (scanDigest d s).out = s.out ∧ (scanDigest d s).tbu = s.tbu ∧
    (scanDigest d s).mtb = s.mtb ∧ (scanDigest d s).epc = s.epc ∧ (scanDigest d s).gcr = s.gcr ∧
    (scanDigest d s).ina = s.ina ∧ (scanDigest d s).cmu = s.cmu ∧ (scanDigest d s).settings = s.settings ∧
    (scanDigest d s).rpu = s.rpu ∧ (scanDigest d s).power = s.power ∧ (scanDigest d s).draws = s.draws ∧
    (scanDigest d s).frees = s.frees ∧ (scanDigest d s).pending = s.pending := by
  exact ⟨rfl, rfl, rfl, rfl, rfl, rfl, rfl, rfl, rfl, rfl, rfl, rfl, rfl, rfl⟩

@[simp] theorem queueWalk_frame (b : Bool) (m : SlotId) (s : State) :
    (queueWalk b m s).siu = s.siu ∧ (queueWalk b m s).out = s.out ∧ (queueWalk b m s).tbu = s.tbu ∧
    (queueWalk b m s).mtb = s.mtb ∧ (queueWalk b m s).epc = s.epc ∧ (queueWalk b m s).gcr = s.gcr ∧
    (queueWalk b m s).ina = s.ina ∧ (queueWalk b m s).cmu = s.cmu ∧ (queueWalk b m s).settings = s.settings ∧
    (queueWalk b m s).rpu = s.rpu ∧ (queueWalk b m s).power = s.power ∧ (queueWalk b m s).draws = s.draws ∧
    (queueWalk b m s).frees = s.frees ∧ (queueWalk b m s).pending = s.pending := by
  exact ⟨rfl, rfl, rfl, rfl, rfl, rfl, rfl, rfl, rfl, rfl, rfl, rfl, rfl, rfl⟩

@[simp] theorem clearItem_frame (k : ItemKind) (i : Nat) (s : State) :
    (clearItem k i s).siu = s.siu ∧ (clearItem k i s).out = s.out ∧ (clearItem k i s).tbu = s.tbu ∧
    (clearItem k i s).mtb = s.mtb ∧ (clearItem k i s).epc = s.epc ∧ (clearItem k i s).gcr = s.gcr ∧
    (clearItem k i s).ina = s.ina ∧ (clearItem k i s).cmu = s.cmu ∧ (clearItem k i s).settings = s.settings ∧
    (clearItem k i s).rpu = s.rpu ∧ (clearItem k i s).power = s.power ∧ (clearItem k i s).draws = s.draws ∧
    (clearItem k i s).frees = s.frees ∧ (clearItem k i s).pending = s.pending := by
  cases k <;> simp [clearItem]

@[simp] theorem enterClearing_frame (s : State) :
    (enterClearing s).siu = s.siu ∧ (enterClearing s).out = s.out ∧ (enterClearing s).tbu = s.tbu ∧
    (enterClearing s).mtb = s.mtb ∧ (enterClearing s).gcr = s.gcr ∧ (enterClearing s).ina = s.ina ∧
    (enterClearing s).settings = s.settings ∧ (enterClearing s).power = s.power ∧ (enterClearing s).draws = s.draws ∧
    (enterClearing s).frees = s.frees ∧ (enterClearing s).pending = s.pending := by
  unfold enterClearing
  simp

@[simp] theorem settleSlot_frame (w : Option Walk) (m : SlotId) (s : State) :
    (settleSlot w m s).out = s.out ∧ (settleSlot w m s).tbu = s.tbu ∧ (settleSlot w m s).sst = s.sst ∧
    (settleSlot w m s).gcr = s.gcr ∧ (settleSlot w m s).settings = s.settings ∧ (settleSlot w m s).power = s.power ∧
    (settleSlot w m s).draws = s.draws ∧ (settleSlot w m s).frees = s.frees ∧ (settleSlot w m s).pending = s.pending := by
  unfold settleSlot
  split <;> simp

@[simp] theorem cutAndClear_frame (s : State) :
    (cutAndClear s).out = s.out ∧ (cutAndClear s).tbu = s.tbu ∧ (cutAndClear s).gcr = s.gcr ∧
    (cutAndClear s).settings = s.settings ∧ (cutAndClear s).power = s.power ∧ (cutAndClear s).draws = s.draws ∧
    (cutAndClear s).frees = s.frees ∧ (cutAndClear s).pending = s.pending := by
  unfold cutAndClear
  simp only [enterClearing_frame]
  refine ⟨?_, ?_, ?_, ?_, ?_, ?_, ?_, ?_⟩ <;> exact foldl_keeps _ (by intro a b; simp) _ _

@[simp] theorem verifyLost_frame (b : ReportBody) (s : State) :
    (verifyLost b s).out = s.out ∧ (verifyLost b s).tbu = s.tbu ∧ (verifyLost b s).gcr = s.gcr ∧
    (verifyLost b s).settings = s.settings ∧ (verifyLost b s).power = s.power ∧ (verifyLost b s).draws = s.draws ∧
    (verifyLost b s).frees = s.frees ∧ (verifyLost b s).pending = s.pending := by
  unfold verifyLost
  simp

@[simp] theorem storeFail_frame (i : Nat) (s : State) :
    (storeFail i s).siu = s.siu ∧ (storeFail i s).out = s.out ∧ (storeFail i s).tbu = s.tbu ∧
    (storeFail i s).mtb = s.mtb ∧ (storeFail i s).gcr = s.gcr ∧ (storeFail i s).ina = s.ina ∧
    (storeFail i s).settings = s.settings ∧ (storeFail i s).power = s.power ∧ (storeFail i s).draws = s.draws ∧
    (storeFail i s).frees = s.frees ∧ (storeFail i s).pending = s.pending := by
  unfold storeFail
  simp

@[simp] theorem poisonItem_frame (k : ItemKind) (i : Nat) (s : State) :
    (poisonItem k i s).siu = s.siu ∧ (poisonItem k i s).out = s.out ∧ (poisonItem k i s).tbu = s.tbu ∧
    (poisonItem k i s).mtb = s.mtb ∧ (poisonItem k i s).gcr = s.gcr ∧ (poisonItem k i s).ina = s.ina ∧
    (poisonItem k i s).settings = s.settings ∧ (poisonItem k i s).power = s.power ∧
    (poisonItem k i s).draws = s.draws ∧ (poisonItem k i s).frees = s.frees ∧ (poisonItem k i s).pending = s.pending := by
  cases k <;> simp [poisonItem]

@[simp] theorem digestFailure_frame (k : ItemKind) (i : Nat) (s : State) :
    (digestFailure k i s).out = s.out ∧ (digestFailure k i s).tbu = s.tbu ∧ (digestFailure k i s).gcr = s.gcr ∧
    (digestFailure k i s).settings = s.settings ∧ (digestFailure k i s).power = s.power ∧
    (digestFailure k i s).draws = s.draws ∧ (digestFailure k i s).frees = s.frees ∧
    (digestFailure k i s).pending = s.pending := by
  unfold digestFailure
  split
  · simp
  · split <;> simp
  · split <;> simp
  · simp

/-- What a checked read does to the state: nothing, or a digest failure (R51). -/
theorem readRow_state (c : Nat) (s : State) : (readRow c s).2 = s ∨ (readRow c s).2 = digestFailure .row c s := by
  unfold readRow
  by_cases h1 : s.sst.store = .clearing
  · rw [if_pos h1]; exact .inl rfl
  · rw [if_neg h1]
    by_cases h2 : isPoisoned s .row c
    · rw [if_pos h2]; exact .inl rfl
    · rw [if_neg h2]
      by_cases h3 : rowDigest (rowAt s c).content = (rowAt s c).digest
      · refine .inl ?_; simp only [h3, if_true]
      · refine .inr ?_; simp only [h3, if_false]

@[simp] theorem readRow_frame (c : Nat) (s : State) :
    ((readRow c s).2).out = s.out ∧ ((readRow c s).2).tbu = s.tbu ∧ ((readRow c s).2).gcr = s.gcr ∧
    ((readRow c s).2).settings = s.settings ∧ ((readRow c s).2).power = s.power ∧ ((readRow c s).2).draws = s.draws ∧
    ((readRow c s).2).frees = s.frees ∧ ((readRow c s).2).pending = s.pending := by
  rcases readRow_state c s with h | h <;> rw [h] <;> simp

/-- What a checked read does to the state: nothing, or a digest failure (R51). -/
theorem readRecord_state (n : Nat) (s : State) : (readRecord n s).2 = s ∨ (readRecord n s).2 = digestFailure .seat n s := by
  unfold readRecord
  by_cases h1 : s.sst.store = .clearing
  · rw [if_pos h1]; exact .inl rfl
  · rw [if_neg h1]
    by_cases h2 : isPoisoned s .seat n
    · rw [if_pos h2]; exact .inl rfl
    · rw [if_neg h2]
      by_cases h3 : recordDigest (recordAt s n).content = (recordAt s n).digest
      · refine .inl ?_; simp only [h3, if_true]
      · refine .inr ?_; simp only [h3, if_false]

@[simp] theorem readRecord_frame (n : Nat) (s : State) :
    ((readRecord n s).2).out = s.out ∧ ((readRecord n s).2).tbu = s.tbu ∧ ((readRecord n s).2).gcr = s.gcr ∧
    ((readRecord n s).2).settings = s.settings ∧ ((readRecord n s).2).power = s.power ∧
    ((readRecord n s).2).draws = s.draws ∧ ((readRecord n s).2).frees = s.frees ∧
    ((readRecord n s).2).pending = s.pending := by
  rcases readRecord_state n s with h | h <;> rw [h] <;> simp

@[simp] theorem endClear_frame (s : State) :
    (endClear s).siu = s.siu ∧ (endClear s).out = s.out ∧ (endClear s).tbu = s.tbu ∧ (endClear s).mtb = s.mtb ∧
    (endClear s).gcr = s.gcr ∧ (endClear s).ina = s.ina ∧ (endClear s).settings = s.settings ∧
    (endClear s).power = s.power ∧ (endClear s).draws = s.draws ∧ (endClear s).frees = s.frees ∧
    (endClear s).pending = s.pending := by
  unfold endClear
  simp

@[simp] theorem clearStep_frame (c : Nat) (s : State) :
    (clearStep c s).siu = s.siu ∧ (clearStep c s).out = s.out ∧ (clearStep c s).tbu = s.tbu ∧
    (clearStep c s).mtb = s.mtb ∧ (clearStep c s).gcr = s.gcr ∧ (clearStep c s).ina = s.ina ∧
    (clearStep c s).settings = s.settings ∧ (clearStep c s).power = s.power ∧ (clearStep c s).draws = s.draws ∧
    (clearStep c s).frees = s.frees ∧ (clearStep c s).pending = s.pending := by
  unfold clearStep
  dsimp only
  split
  all_goals
    simp only [nextCohort_frame, endClear_frame]
    refine ⟨?_, ?_, ?_, ?_, ?_, ?_, ?_, ?_, ?_, ?_, ?_⟩ <;> exact (foldl_keeps _ (by intro a b; simp) _ _).trans (by simp)

@[simp] theorem verifyRow_frame (c : Nat) (s : State) :
    (verifyRow c s).out = s.out ∧ (verifyRow c s).tbu = s.tbu ∧ (verifyRow c s).gcr = s.gcr ∧
    (verifyRow c s).settings = s.settings ∧ (verifyRow c s).power = s.power ∧ (verifyRow c s).draws = s.draws ∧
    (verifyRow c s).frees = s.frees ∧ (verifyRow c s).pending = s.pending := by
  unfold verifyRow
  dsimp only
  split <;> simp

@[simp] theorem verifyRecord_frame (n : Nat) (s : State) :
    (verifyRecord n s).out = s.out ∧ (verifyRecord n s).tbu = s.tbu ∧ (verifyRecord n s).gcr = s.gcr ∧
    (verifyRecord n s).settings = s.settings ∧ (verifyRecord n s).power = s.power ∧
    (verifyRecord n s).draws = s.draws ∧ (verifyRecord n s).frees = s.frees ∧ (verifyRecord n s).pending = s.pending := by
  unfold verifyRecord
  split
  · dsimp only
    split <;> simp
  · simp

@[simp] theorem requeueOwed_frame (m : SlotId) (s : State) :
    (requeueOwed m s).siu = s.siu ∧ (requeueOwed m s).out = s.out ∧ (requeueOwed m s).tbu = s.tbu ∧
    (requeueOwed m s).mtb = s.mtb ∧ (requeueOwed m s).epc = s.epc ∧ (requeueOwed m s).gcr = s.gcr ∧
    (requeueOwed m s).ina = s.ina ∧ (requeueOwed m s).cmu = s.cmu ∧ (requeueOwed m s).settings = s.settings ∧
    (requeueOwed m s).rpu = s.rpu ∧ (requeueOwed m s).power = s.power ∧ (requeueOwed m s).draws = s.draws ∧
    (requeueOwed m s).frees = s.frees ∧ (requeueOwed m s).pending = s.pending := by
  unfold requeueOwed
  split
  · simp
  · split <;> simp

@[simp] theorem endVerify_frame (s : State) :
    (endVerify s).out = s.out ∧ (endVerify s).tbu = s.tbu ∧ (endVerify s).gcr = s.gcr ∧
    (endVerify s).settings = s.settings ∧ (endVerify s).power = s.power ∧ (endVerify s).draws = s.draws ∧
    (endVerify s).frees = s.frees ∧ (endVerify s).pending = s.pending := by
  unfold endVerify
  split
  · refine ⟨?_, ?_, ?_, ?_, ?_, ?_, ?_, ?_⟩ <;> exact (foldl_keeps _ (by intro a b; simp) _ _).trans (by simp)
  · simp

@[simp] theorem verifyStep_frame (c : Nat) (s : State) :
    (verifyStep c s).out = s.out ∧ (verifyStep c s).tbu = s.tbu ∧ (verifyStep c s).gcr = s.gcr ∧
    (verifyStep c s).settings = s.settings ∧ (verifyStep c s).power = s.power ∧ (verifyStep c s).draws = s.draws ∧
    (verifyStep c s).frees = s.frees ∧ (verifyStep c s).pending = s.pending := by
  obtain ⟨t, ht⟩ : ∃ t, t = memberList.foldl (fun t i => verifyRecord (seatOf c i) t) (verifyRow c s) := ⟨_, rfl⟩
  have h : t.out = s.out ∧ t.tbu = s.tbu ∧ t.gcr = s.gcr ∧ t.settings = s.settings ∧ t.power = s.power ∧
      t.draws = s.draws ∧ t.frees = s.frees ∧ t.pending = s.pending := by
    rw [ht]
    refine ⟨?_, ?_, ?_, ?_, ?_, ?_, ?_, ?_⟩ <;> exact (foldl_keeps _ (by intro a b; simp) _ _).trans (by simp)
  simp only [verifyStep]
  rw [← ht]
  split
  · split <;> simpa using h
  · exact h

@[simp] theorem wipeRow_frame (m : SlotId) (c : Nat) (s : State) :
    (wipeRow m c s).out = s.out ∧ (wipeRow m c s).tbu = s.tbu ∧ (wipeRow m c s).gcr = s.gcr ∧
    (wipeRow m c s).settings = s.settings ∧ (wipeRow m c s).power = s.power ∧ (wipeRow m c s).draws = s.draws ∧
    (wipeRow m c s).frees = s.frees ∧ (wipeRow m c s).pending = s.pending := by
  have h := readRow_frame c s
  unfold wipeRow
  split
  · next e => rw [e] at h; split <;> simpa using h
  · next e => rw [e] at h; simpa using h

@[simp] theorem wipeRecord_frame (m : SlotId) (n : Nat) (s : State) :
    (wipeRecord m n s).out = s.out ∧ (wipeRecord m n s).tbu = s.tbu ∧ (wipeRecord m n s).gcr = s.gcr ∧
    (wipeRecord m n s).settings = s.settings ∧ (wipeRecord m n s).power = s.power ∧
    (wipeRecord m n s).draws = s.draws ∧ (wipeRecord m n s).frees = s.frees ∧ (wipeRecord m n s).pending = s.pending := by
  have h := readRecord_frame n s
  unfold wipeRecord
  split
  · next e => rw [e] at h; split <;> simpa using h
  · next e => rw [e] at h; simpa using h

@[simp] theorem wipeStep_frame (m : SlotId) (c : Nat) (s : State) :
    (wipeStep m c s).out = s.out ∧ (wipeStep m c s).tbu = s.tbu ∧ (wipeStep m c s).gcr = s.gcr ∧
    (wipeStep m c s).settings = s.settings ∧ (wipeStep m c s).power = s.power ∧ (wipeStep m c s).draws = s.draws ∧
    (wipeStep m c s).frees = s.frees ∧ (wipeStep m c s).pending = s.pending := by
  unfold wipeStep
  dsimp only
  split
  all_goals
    simp only [nextCohort_frame, enterEmpty_frame, offer_frame, endWalk_frame]
    refine ⟨?_, ?_, ?_, ?_, ?_, ?_, ?_, ?_⟩ <;> exact (foldl_keeps _ (by intro a b; simp) _ _).trans (by simp)

@[simp] theorem refundMember_frame (m : SlotId) (c : Nat) (p : MemberMask) (i : Fin 32) (s : State) :
    ((refundMember m c (p, s) i).2).out = s.out ∧ ((refundMember m c (p, s) i).2).tbu = s.tbu ∧
    ((refundMember m c (p, s) i).2).gcr = s.gcr ∧ ((refundMember m c (p, s) i).2).settings = s.settings ∧
    ((refundMember m c (p, s) i).2).power = s.power ∧ ((refundMember m c (p, s) i).2).draws = s.draws ∧
    ((refundMember m c (p, s) i).2).frees = s.frees ∧ ((refundMember m c (p, s) i).2).pending = s.pending := by
  have h := readRecord_frame (seatOf c i) s
  unfold refundMember
  dsimp only
  split
  · split
    · next e => rw [e] at h; simpa using h
    · next e => rw [e] at h; simpa using h
  · simp

@[simp] theorem refundCohort_frame (m : SlotId) (c : Nat) (s : State) :
    (refundCohort m c s).out = s.out ∧ (refundCohort m c s).tbu = s.tbu ∧ (refundCohort m c s).gcr = s.gcr ∧
    (refundCohort m c s).settings = s.settings ∧ (refundCohort m c s).power = s.power ∧
    (refundCohort m c s).draws = s.draws ∧ (refundCohort m c s).frees = s.frees ∧
    (refundCohort m c s).pending = s.pending := by
  have h := readRow_frame c s
  have k : ∀ (l : List (Fin 32)) (p : MemberMask) (t : State),
      let u := (l.foldl (refundMember m c) (p, t)).2
      u.out = t.out ∧ u.tbu = t.tbu ∧ u.gcr = t.gcr ∧ u.settings = t.settings ∧ u.power = t.power ∧ u.draws = t.draws ∧
      u.frees = t.frees ∧ u.pending = t.pending := by
    intro l
    induction l with
    | nil => simp
    | cons i l ih =>
      intro p t
      have a := ih (refundMember m c (p, t) i).1 (refundMember m c (p, t) i).2
      simp only [refundMember_frame] at a
      simpa [List.foldl_cons] using a
  unfold refundCohort
  split
  · next e => rw [e] at h; simpa using h
  · next r t e =>
    rw [e] at h
    have a := k memberList (r.purchase.get m) t
    dsimp only at a h ⊢
    split
    · simp_all
    · simp_all

@[simp] theorem refundStep_frame (m : SlotId) (c : Nat) (s : State) :
    (refundStep m c s).out = s.out ∧ (refundStep m c s).tbu = s.tbu ∧ (refundStep m c s).gcr = s.gcr ∧
    (refundStep m c s).settings = s.settings ∧ (refundStep m c s).power = s.power ∧
    (refundStep m c s).draws = s.draws ∧ (refundStep m c s).frees = s.frees ∧ (refundStep m c s).pending = s.pending := by
  unfold refundStep
  dsimp only
  split <;> simp

/-! ## Output, time and commands -/

@[simp] theorem drain_frame (s : State) :
    (drain s).siu = s.siu ∧ (drain s).tbu = s.tbu ∧ (drain s).mtb = s.mtb ∧ (drain s).epc = s.epc ∧
    (drain s).sst = s.sst ∧ (drain s).gcr = s.gcr ∧ (drain s).ina = s.ina ∧ (drain s).cmu = s.cmu ∧
    (drain s).settings = s.settings ∧ (drain s).rpu = s.rpu ∧ (drain s).power = s.power ∧ (drain s).draws = s.draws ∧
    (drain s).frees = s.frees ∧ (drain s).pending = s.pending := by
  exact ⟨rfl, rfl, rfl, rfl, rfl, rfl, rfl, rfl, rfl, rfl, rfl, rfl, rfl, rfl⟩

@[simp] theorem bumpCounter_frame (pid : Nat) (s : State) :
    (bumpCounter pid s).out = s.out ∧ (bumpCounter pid s).tbu = s.tbu ∧ (bumpCounter pid s).mtb = s.mtb ∧
    (bumpCounter pid s).epc = s.epc ∧ (bumpCounter pid s).sst = s.sst ∧ (bumpCounter pid s).gcr = s.gcr ∧
    (bumpCounter pid s).ina = s.ina ∧ (bumpCounter pid s).cmu = s.cmu ∧ (bumpCounter pid s).settings = s.settings ∧
    (bumpCounter pid s).rpu = s.rpu ∧ (bumpCounter pid s).power = s.power ∧ (bumpCounter pid s).draws = s.draws ∧
    (bumpCounter pid s).frees = s.frees ∧ (bumpCounter pid s).pending = s.pending := by
  exact ⟨rfl, rfl, rfl, rfl, rfl, rfl, rfl, rfl, rfl, rfl, rfl, rfl, rfl, rfl⟩

@[simp] theorem adopt_frame (r : StreamTime) (s : State) :
    (adopt r s).siu = s.siu ∧ (adopt r s).out = s.out ∧ (adopt r s).mtb = s.mtb ∧ (adopt r s).epc = s.epc ∧
    (adopt r s).sst = s.sst ∧ (adopt r s).gcr = s.gcr ∧ (adopt r s).ina = s.ina ∧ (adopt r s).cmu = s.cmu ∧
    (adopt r s).settings = s.settings ∧ (adopt r s).rpu = s.rpu ∧ (adopt r s).power = s.power ∧
    (adopt r s).draws = s.draws ∧ (adopt r s).frees = s.frees ∧ (adopt r s).pending = s.pending := by
  exact ⟨rfl, rfl, rfl, rfl, rfl, rfl, rfl, rfl, rfl, rfl, rfl, rfl, rfl, rfl⟩

@[simp] theorem dropCandidate_frame (s : State) :
    (dropCandidate s).siu = s.siu ∧ (dropCandidate s).out = s.out ∧ (dropCandidate s).mtb = s.mtb ∧
    (dropCandidate s).epc = s.epc ∧ (dropCandidate s).sst = s.sst ∧ (dropCandidate s).gcr = s.gcr ∧
    (dropCandidate s).ina = s.ina ∧ (dropCandidate s).cmu = s.cmu ∧ (dropCandidate s).settings = s.settings ∧
    (dropCandidate s).rpu = s.rpu ∧ (dropCandidate s).power = s.power ∧ (dropCandidate s).draws = s.draws ∧
    (dropCandidate s).frees = s.frees ∧ (dropCandidate s).pending = s.pending := by
  exact ⟨rfl, rfl, rfl, rfl, rfl, rfl, rfl, rfl, rfl, rfl, rfl, rfl, rfl, rfl⟩

@[simp] theorem settle_frame (s : State) :
    (settle s).siu = s.siu ∧ (settle s).out = s.out ∧ (settle s).tbu = s.tbu ∧ (settle s).mtb = s.mtb ∧
    (settle s).epc = s.epc ∧ (settle s).gcr = s.gcr ∧ (settle s).ina = s.ina ∧ (settle s).cmu = s.cmu ∧
    (settle s).settings = s.settings ∧ (settle s).rpu = s.rpu ∧ (settle s).draws = s.draws ∧
    (settle s).frees = s.frees ∧ (settle s).pending = s.pending := by
  exact ⟨rfl, rfl, rfl, rfl, rfl, rfl, rfl, rfl, rfl, rfl, rfl, rfl, rfl⟩

@[simp] theorem stopCommand_frame (x : Executing) (s : State) :
    (stopCommand x s).siu = s.siu ∧ (stopCommand x s).out = s.out ∧ (stopCommand x s).tbu = s.tbu ∧
    (stopCommand x s).mtb = s.mtb ∧ (stopCommand x s).epc = s.epc ∧ (stopCommand x s).gcr = s.gcr ∧
    (stopCommand x s).ina = s.ina ∧ (stopCommand x s).settings = s.settings ∧ (stopCommand x s).rpu = s.rpu ∧
    (stopCommand x s).draws = s.draws ∧ (stopCommand x s).frees = s.frees ∧
    (stopCommand x s).pending = s.pending := by
  exact ⟨rfl, rfl, rfl, rfl, rfl, rfl, rfl, rfl, rfl, rfl, rfl, rfl⟩

@[simp] theorem enterHold_frame (b : Bool) (s : State) :
    (enterHold b s).siu = s.siu ∧ (enterHold b s).out = s.out ∧ (enterHold b s).tbu = s.tbu ∧
    (enterHold b s).mtb = s.mtb ∧ (enterHold b s).epc = s.epc ∧ (enterHold b s).gcr = s.gcr ∧
    (enterHold b s).ina = s.ina ∧ (enterHold b s).cmu = s.cmu ∧ (enterHold b s).settings = s.settings ∧
    (enterHold b s).rpu = s.rpu ∧ (enterHold b s).draws = s.draws ∧ (enterHold b s).frees = s.frees ∧
    (enterHold b s).pending = s.pending := by
  unfold enterHold
  dsimp only
  split <;> simp

@[simp] theorem loseDram_frame (s : State) :
    (loseDram s).siu = s.siu ∧ (loseDram s).out = s.out ∧ (loseDram s).tbu = s.tbu ∧ (loseDram s).mtb = s.mtb ∧
    (loseDram s).epc = s.epc ∧ (loseDram s).gcr = s.gcr ∧ (loseDram s).ina = s.ina ∧ (loseDram s).cmu = s.cmu ∧
    (loseDram s).settings = s.settings ∧ (loseDram s).rpu = s.rpu ∧ (loseDram s).power = s.power ∧
    (loseDram s).draws = s.draws ∧ (loseDram s).pending = s.pending := by
  exact ⟨rfl, rfl, rfl, rfl, rfl, rfl, rfl, rfl, rfl, rfl, rfl, rfl, rfl⟩

@[simp] theorem appendOut_frame (p : OutPosition) (s : State) :
    (appendOut p s).siu = s.siu ∧ (appendOut p s).tbu = s.tbu ∧ (appendOut p s).mtb = s.mtb ∧
    (appendOut p s).epc = s.epc ∧ (appendOut p s).sst = s.sst ∧ (appendOut p s).gcr = s.gcr ∧
    (appendOut p s).ina = s.ina ∧ (appendOut p s).cmu = s.cmu ∧ (appendOut p s).settings = s.settings ∧
    (appendOut p s).rpu = s.rpu ∧ (appendOut p s).power = s.power ∧ (appendOut p s).draws = s.draws ∧
    (appendOut p s).frees = s.frees ∧ (appendOut p s).pending = s.pending := by
  exact ⟨rfl, rfl, rfl, rfl, rfl, rfl, rfl, rfl, rfl, rfl, rfl, rfl, rfl, rfl⟩

@[simp] theorem setCandidate_frame (r : StreamTime) (n : Nat) (s : State) :
    (setCandidate r n s).siu = s.siu ∧ (setCandidate r n s).out = s.out ∧ (setCandidate r n s).mtb = s.mtb ∧
    (setCandidate r n s).epc = s.epc ∧ (setCandidate r n s).sst = s.sst ∧ (setCandidate r n s).gcr = s.gcr ∧
    (setCandidate r n s).ina = s.ina ∧ (setCandidate r n s).cmu = s.cmu ∧
    (setCandidate r n s).settings = s.settings ∧ (setCandidate r n s).rpu = s.rpu ∧
    (setCandidate r n s).power = s.power ∧ (setCandidate r n s).draws = s.draws ∧
    (setCandidate r n s).frees = s.frees ∧ (setCandidate r n s).pending = s.pending := by
  exact ⟨rfl, rfl, rfl, rfl, rfl, rfl, rfl, rfl, rfl, rfl, rfl, rfl, rfl, rfl⟩

@[simp] theorem completeSending_frame (s : State) :
    (completeSending s).siu = s.siu ∧ (completeSending s).tbu = s.tbu ∧ (completeSending s).mtb = s.mtb ∧
    (completeSending s).epc = s.epc ∧ (completeSending s).sst = s.sst ∧ (completeSending s).gcr = s.gcr ∧
    (completeSending s).ina = s.ina ∧ (completeSending s).cmu = s.cmu ∧ (completeSending s).settings = s.settings ∧
    (completeSending s).rpu = s.rpu ∧ (completeSending s).power = s.power ∧ (completeSending s).draws = s.draws ∧
    (completeSending s).frees = s.frees ∧ (completeSending s).pending = s.pending := by
  unfold completeSending
  split <;> simp

@[simp] theorem place_frame (pid : Nat) (c : List (BitVec 8)) (e : Emission) (s : State) :
    (place pid c e s).tbu = s.tbu ∧ (place pid c e s).mtb = s.mtb ∧ (place pid c e s).epc = s.epc ∧
    (place pid c e s).sst = s.sst ∧ (place pid c e s).gcr = s.gcr ∧ (place pid c e s).ina = s.ina ∧
    (place pid c e s).cmu = s.cmu ∧ (place pid c e s).settings = s.settings ∧ (place pid c e s).rpu = s.rpu ∧
    (place pid c e s).power = s.power ∧ (place pid c e s).draws = s.draws ∧ (place pid c e s).frees = s.frees ∧
    (place pid c e s).pending = s.pending := by
  unfold place
  simp

@[simp] theorem enterHoldover_frame (s : State) :
    (enterHoldover s).siu = s.siu ∧ (enterHoldover s).out = s.out ∧ (enterHoldover s).mtb = s.mtb ∧
    (enterHoldover s).epc = s.epc ∧ (enterHoldover s).sst = s.sst ∧ (enterHoldover s).gcr = s.gcr ∧
    (enterHoldover s).ina = s.ina ∧ (enterHoldover s).settings = s.settings ∧ (enterHoldover s).power = s.power ∧
    (enterHoldover s).draws = s.draws ∧ (enterHoldover s).frees = s.frees ∧ (enterHoldover s).pending = s.pending := by
  unfold enterHoldover
  simp

@[simp] theorem takeReference_frame (r : StreamTime) (s : State) :
    (takeReference r s).out = s.out ∧ (takeReference r s).sst = s.sst ∧ (takeReference r s).gcr = s.gcr ∧
    (takeReference r s).settings = s.settings ∧ (takeReference r s).power = s.power ∧
    (takeReference r s).draws = s.draws ∧ (takeReference r s).frees = s.frees ∧
    (takeReference r s).pending = s.pending := by
  unfold takeReference
  split
  · simp
  · dsimp only
    split
    · split <;> simp
    · split
      · simp
      · split
        · split <;> simp
        · simp

@[simp] theorem endCommand_frame (x : Executing) (n : Nat) (a : CommandResult) (b : RefusalReason) (d : ResultDetail) (l : List CodeValue) (s : State) :
    (endCommand x n a b d l s).siu = s.siu ∧ (endCommand x n a b d l s).out = s.out ∧
    (endCommand x n a b d l s).tbu = s.tbu ∧ (endCommand x n a b d l s).mtb = s.mtb ∧
    (endCommand x n a b d l s).epc = s.epc ∧ (endCommand x n a b d l s).sst = s.sst ∧
    (endCommand x n a b d l s).gcr = s.gcr ∧ (endCommand x n a b d l s).ina = s.ina ∧
    (endCommand x n a b d l s).settings = s.settings ∧ (endCommand x n a b d l s).power = s.power ∧
    (endCommand x n a b d l s).draws = s.draws ∧ (endCommand x n a b d l s).frees = s.frees ∧
    (endCommand x n a b d l s).pending = s.pending := by
  unfold endCommand
  dsimp only
  split <;> simp

@[simp] theorem endItem_frame (x : Executing) (c : CodeValue) (s : State) :
    (endItem x c s).siu = s.siu ∧ (endItem x c s).out = s.out ∧ (endItem x c s).tbu = s.tbu ∧
    (endItem x c s).mtb = s.mtb ∧ (endItem x c s).epc = s.epc ∧ (endItem x c s).sst = s.sst ∧
    (endItem x c s).gcr = s.gcr ∧ (endItem x c s).ina = s.ina ∧ (endItem x c s).settings = s.settings ∧
    (endItem x c s).power = s.power ∧ (endItem x c s).draws = s.draws ∧ (endItem x c s).frees = s.frees ∧
    (endItem x c s).pending = s.pending := by
  unfold endItem
  dsimp only
  split <;> simp

@[simp] theorem offerReadback_frame (n : BitVec 32) (d : List (BitVec 8)) (s : State) :
    (offerReadback n d s).siu = s.siu ∧ (offerReadback n d s).out = s.out ∧ (offerReadback n d s).tbu = s.tbu ∧
    (offerReadback n d s).mtb = s.mtb ∧ (offerReadback n d s).epc = s.epc ∧ (offerReadback n d s).sst = s.sst ∧
    (offerReadback n d s).gcr = s.gcr ∧ (offerReadback n d s).ina = s.ina ∧
    (offerReadback n d s).settings = s.settings ∧ (offerReadback n d s).power = s.power ∧
    (offerReadback n d s).draws = s.draws ∧ (offerReadback n d s).frees = s.frees ∧
    (offerReadback n d s).pending = s.pending := by
  refine ⟨?_, ?_, ?_, ?_, ?_, ?_, ?_, ?_, ?_, ?_, ?_, ?_, ?_⟩ <;> exact foldl_keeps _ (by intro a b; simp) _ _

@[simp] theorem endWhole_frame (x : Executing) (o : WholeOutcome) (s : State) :
    (endWhole x o s).siu = s.siu ∧ (endWhole x o s).out = s.out ∧ (endWhole x o s).tbu = s.tbu ∧
    (endWhole x o s).mtb = s.mtb ∧ (endWhole x o s).epc = s.epc ∧ (endWhole x o s).sst = s.sst ∧
    (endWhole x o s).gcr = s.gcr ∧ (endWhole x o s).ina = s.ina ∧ (endWhole x o s).settings = s.settings ∧
    (endWhole x o s).power = s.power ∧ (endWhole x o s).draws = s.draws ∧ (endWhole x o s).frees = s.frees ∧
    (endWhole x o s).pending = s.pending := by
  unfold endWhole
  dsimp only
  split <;> simp

end Sys2Proof.Machine
end

