-- ==== Sys2Proof/Laws/Slots.lean ====
section
/-! SUPPORT. What the operations over slots do to slot n: its Match Table slot, its epoch record, its Word Message state; and
the general lemma for a fold over the sixteen slots. -/

namespace Sys2Proof.Machine

/-! ## Folds over the slots -/

/-- A fold over the slots under a property that every step keeps, whose step for m acts on what stands at m alone: at every
slot it has acted once. -/
theorem foldl_touched {σ α : Type} (obs : σ → SlotId → α) (P : σ → Prop) (g : σ → SlotId → σ) (F : SlotId → α → α)
    (hP : ∀ s m, P s → P (g s m)) (hs : ∀ s m, P s → obs (g s m) m = F m (obs s m))
    (hn : ∀ s m n, P s → n ≠ m → obs (g s m) n = obs s n) (l : List SlotId) (hl : l.Nodup) (s : σ) (m : SlotId) (h : P s) :
    P (l.foldl g s) ∧ obs (l.foldl g s) m = if m ∈ l then F m (obs s m) else obs s m := by
  induction l generalizing s with
  | nil => simp [h]
  | cons a l ih =>
    rw [List.nodup_cons] at hl
    rw [List.foldl_cons]
    obtain ⟨h1, h2⟩ := ih hl.2 (g s a) (hP s a h)
    refine ⟨h1, h2.trans ?_⟩
    by_cases ha : m = a
    · subst ha; simp [hl.1, hs s m h]
    · simp [ha, hn s a m h ha]

/-- The same over all sixteen slots. -/
theorem foldl_slots {σ α : Type} (obs : σ → SlotId → α) (P : σ → Prop) (g : σ → SlotId → σ) (F : SlotId → α → α)
    (hP : ∀ s m, P s → P (g s m)) (hs : ∀ s m, P s → obs (g s m) m = F m (obs s m))
    (hn : ∀ s m n, P s → n ≠ m → obs (g s m) n = obs s n) (s : σ) (m : SlotId) (h : P s) :
    obs (slotList.foldl g s) m = F m (obs s m) := by
  rw [(foldl_touched obs P g F hP hs hn slotList (by decide) s m h).2, if_pos (mem_slotList m)]

/-- A fold that skips some elements is the fold over those it takes. -/
theorem foldl_if {σ β : Type} (g : σ → β → σ) (p : β → Bool) (l : List β) (s : σ) :
    l.foldl (fun t b => if p b then g t b else t) s = (l.filter p).foldl g s := by
  induction l generalizing s with
  | nil => rfl
  | cons a l ih =>
    by_cases h : p a = true
    · simp [h, ih]
    · simp [h, ih]

/-! ## Changes of slot state -/

theorem enterState_slot (m n : SlotId) (dest : SlotState) (c : StateCause) (s : State) :
    (enterState m dest c s).slot n = if n = m then { s.slot m with state := dest } else s.slot n := by
  unfold enterState
  rw [slot_of_mtb (offer_frame _ _).2.2.2.1, setSlot_slot]

theorem enterEnded_slot (m n : SlotId) (mark : StreamTime) (c : StateCause) (s : State) :
    (enterEnded m mark c s).slot n = if n = m then { s.slot m with state := .ended, endMark := some mark } else s.slot n := by
  unfold enterEnded
  rw [enterState_slot]
  by_cases h : n = m
  · simp [h]
  · simp [h, setSlot_slot]

theorem enterClosed_slot (m n : SlotId) (c : StateCause) (s : State) :
    (enterClosed m c s).slot n = if n = m then { s.slot m with state := .closed } else s.slot n := by
  unfold enterClosed
  dsimp only
  split
  · rw [slot_of_mtb (stopWords_frame _ _).2.2.2.1, slot_of_mtb (departGranting_frame _ _).2.2.2.1,
      slot_of_mtb (releaseClaims_frame _ _).2.2.1, enterState_slot]
  · rw [slot_of_mtb (stopWords_frame _ _).2.2.2.1, slot_of_mtb (releaseClaims_frame _ _).2.2.1, enterState_slot]

theorem enterEmpty_slot (m n : SlotId) (c : StateCause) (s : State) :
    (enterEmpty m c s).slot n =
      if n = m then { s.slot m with state := .empty, live := none, endMark := none } else s.slot n := by
  unfold enterEmpty
  dsimp only
  rw [slot_of_mtb (setEpochSlot_mtb _ _ _), enterState_slot]
  by_cases h : n = m
  · simp [h]
  · simp [h, setSlot_slot]

/-- The record of a slot that has left the granting states: no rollover (R123). -/
def EpochRecord.quiesced (r : EpochRecord) : EpochRecord :=
  if r.rollover = .steady then r
  else { r with pendingKey := none, redo := false, passesLeft := 0, sweepAge := 0, cause := none, rollover := .steady }

theorem departGranting_record (m n : SlotId) (s : State) :
    (departGranting m s).record n = if n = m then (s.record m).map EpochRecord.quiesced else s.record n := by
  unfold departGranting
  split
  · next h => by_cases hn : n = m <;> simp [hn, h]
  · next r h =>
    by_cases hr : r.rollover = .steady
    · by_cases hn : n = m
      · subst hn; simp [hr, h, EpochRecord.quiesced]
      · simp [hr, hn]
    · rw [if_neg hr, record_of_epc (offer_frame _ _).2.2.2.2.1, setEpochSlot_record]
      by_cases hn : n = m
      · subst hn; simp [h, EpochRecord.quiesced, hr]
      · simp [hn]

theorem stopWords_wordTimer (m n : SlotId) (s : State) :
    (stopWords m s).wordTimer n = if n = m then WordTimer.stopped else s.wordTimer n := setWordTimer_wordTimer ..

theorem startWords_wordTimer (m n : SlotId) (s : State) :
    (startWords m s).wordTimer n =
      if n = m then { due := (s.wordTimer m).due.or (some s.tbu.tick), timer := some 0 } else s.wordTimer n :=
  setWordTimer_wordTimer ..

theorem enterState_wordTimer (m n : SlotId) (dest : SlotState) (c : StateCause) (s : State) :
    (enterState m dest c s).wordTimer n = s.wordTimer n := wordTimer_of_ina (by simp) n

theorem enterState_record (m n : SlotId) (dest : SlotState) (c : StateCause) (s : State) :
    (enterState m dest c s).record n = s.record n := record_of_epc (by simp) n

theorem enterClosed_record (m n : SlotId) (c : StateCause) (s : State) :
    (enterClosed m c s).record n =
      if n = m ∧ (s.slot m).state = .ended then (s.record m).map EpochRecord.quiesced else s.record n := by
  unfold enterClosed
  dsimp only
  by_cases he : (s.slot m).state = .ended
  · simp only [he, decide_true, if_true, and_true]
    rw [record_of_epc (stopWords_frame _ _).2.2.2.2.1, departGranting_record]
    rw [record_of_epc (releaseClaims_frame _ _).2.2.2.1, record_of_epc (releaseClaims_frame _ _).2.2.2.1,
      enterState_record, enterState_record]
  · simp only [he, decide_false, Bool.false_eq_true, if_false, and_false]
    rw [record_of_epc (stopWords_frame _ _).2.2.2.2.1, record_of_epc (releaseClaims_frame _ _).2.2.2.1, enterState_record]

theorem enterClosed_wordTimer (m n : SlotId) (c : StateCause) (s : State) :
    (enterClosed m c s).wordTimer n = if n = m then WordTimer.stopped else s.wordTimer n := by
  unfold enterClosed
  dsimp only
  rw [stopWords_wordTimer]
  by_cases hn : n = m
  · simp [hn]
  · simp only [hn, if_false]
    split
    · rw [wordTimer_of_ina (departGranting_frame _ _).2.2.2.2.2.2.1, wordTimer_of_ina (releaseClaims_frame _ _).2.2.2.2.2.2.1,
        enterState_wordTimer]
    · rw [wordTimer_of_ina (releaseClaims_frame _ _).2.2.2.2.2.2.1, enterState_wordTimer]

theorem enterEmpty_record (m n : SlotId) (c : StateCause) (s : State) :
    (enterEmpty m c s).record n = if n = m then none else s.record n := by
  unfold enterEmpty
  dsimp only
  rw [setEpochSlot_record]
  by_cases hn : n = m
  · simp [hn, EpochSlot.reset]
  · simp only [hn, if_false]
    rw [enterState_record]; rfl

theorem enterEmpty_wordTimer (m n : SlotId) (c : StateCause) (s : State) :
    (enterEmpty m c s).wordTimer n = s.wordTimer n := wordTimer_of_ina (by simp) n

theorem enterEnded_record (m n : SlotId) (k : StreamTime) (c : StateCause) (s : State) :
    (enterEnded m k c s).record n = s.record n := record_of_epc (by simp) n

theorem enterEnded_wordTimer (m n : SlotId) (k : StreamTime) (c : StateCause) (s : State) :
    (enterEnded m k c s).wordTimer n = s.wordTimer n := wordTimer_of_ina (by simp) n

/-! ## Revocation and fresh notices -/

/-- The carousel's answer depends on the carousel, the packet in transmission and the live records (R134). -/
theorem carouselHolds_of {s t : State} (hg : t.gcr = s.gcr) (ho : t.out = s.out) (m : SlotId)
    (hl : (t.live m).map (·.matchId) = (s.live m).map (·.matchId)) (e : BitVec 16) :
    t.carouselHolds m e = s.carouselHolds m e := by
  unfold State.carouselHolds State.heldEntries
  rw [hg, ho, hl]

/-- A revocation notice changes epoch records alone (R112). -/
theorem revoke_eq (m : SlotId) (s : State) : revoke m s = { s with epc := (revoke m s).epc } := by
  apply State.eq_of <;> simp

/-- Revocation notices change epoch records alone (R112). -/
theorem revokeWhere_eq (p : State → SlotId → Bool) (s : State) :
    revokeWhere p s = { s with epc := (revokeWhere p s).epc } := by
  apply State.eq_of <;> simp

/-- What a revocation notice does to the records (R112). -/
theorem revoke_record (m n : SlotId) (s : State) :
    (revoke m s).record n = if n = m ∧ s.granting m = true then
      (s.record m).map fun r => r.notice (r.issued || s.carouselHolds m r.epoch) else s.record n := by
  unfold revoke
  by_cases hg : s.granting m = true
  · simp only [hg, if_true, and_true]
    cases h : s.record m with
    | none => by_cases hn : n = m <;> simp [hn, h]
    | some r =>
      simp only [setRecord_record]
      by_cases hn : n = m <;> simp [hn]
  · simp [hg]

/-- What a notice to every slot that satisfies p does to the records (R112). -/
theorem revokeWhere_record (p : State → SlotId → Bool) (m : SlotId) (s : State) :
    (revokeWhere p s).record m = if p s m = true ∧ s.granting m = true then
      (s.record m).map fun r => r.notice (r.issued || s.carouselHolds m r.epoch) else s.record m := by
  unfold revokeWhere
  refine foldl_slots State.record (fun t => t.mtb = s.mtb ∧ t.gcr = s.gcr ∧ t.out = s.out)
    (fun t m => if p s m then revoke m t else t)
    (fun m x => if p s m = true ∧ s.granting m = true then
      x.map fun r => r.notice (r.issued || s.carouselHolds m r.epoch) else x) ?_ ?_ ?_ s m ⟨rfl, rfl, rfl⟩
  · intro t n h; split <;> simp [h]
  · intro t n h
    by_cases hp : p s n = true
    · simp only [hp, if_true, true_and, revoke_record, granting_of_mtb h.1, carouselHolds_of h.2.1 h.2.2 n (by rw [live_of_mtb h.1])]
    · simp [hp]
  · intro t k n h hne
    split
    · rw [revoke_record]; simp [hne]
    · rfl

/-- What fresh notices to the slots that satisfy p do to the Fresh Queue (R135). -/
theorem freshWhere_fresh (c : Nat) (p : State → SlotId → Bool) (s : State) :
    freshWhere c p s = { s with gcr := { s.gcr with
      fresh := (slotList.filter (p s)).foldl (fun l m => noticePair c m s.settings.freshRepeats l) s.gcr.fresh } } := by
  unfold freshWhere
  rw [foldl_if (fun t m => freshNotice c m t) (p s)]
  generalize slotList.filter (p s) = l
  induction l generalizing s with
  | nil => rfl
  | cons a l ih => rw [List.foldl_cons, List.foldl_cons, ih]; rfl

end Sys2Proof.Machine
end

