-- ==== Sys2Proof/Laws/Store.lean ====
section
/-! SUPPORT. Checked reads and whole writes of the Seat Store, and how a row of the command channel takes its unit. -/

namespace Sys2Proof.Machine

/-! ## Units -/

theorem unitReady_of_takes {i : Instr} {x : Executing} {s : State} (h : Takes i x s) : unitReady i s = some x := by
  simp [unitReady, State.taking, h.1, h.2.1, h.2.2]

/-- A row that is an item ends its unit with its code (R161). -/
theorem itemUnit_of_takes {i : Instr} {x : Executing} {s : State} (h : Takes i x s) (f : State → CodeValue × State) :
    itemUnit i f s = endItem x (f s).1 (f s).2 := by simp [itemUnit, unitReady_of_takes h, State.running, h.1]

/-- A row that is a whole command ends with its outcome (R161). -/
theorem wholeUnit_of_takes {i : Instr} {x : Executing} {s : State} (h : Takes i x s) (f : State → WholeOutcome × State) :
    wholeUnit i f s = endWhole x (f s).1 (f s).2 := by simp [wholeUnit, unitReady_of_takes h, State.running, h.1]

/-- In hold, the next unit of the command in execution is ready while step 2 lasts. -/
theorem unitReady_of_inHand {i : Instr} {x : Executing} {s : State} (h : InHand i x s) : unitReady i s = some x := by
  simp [unitReady, State.taking, h.1, h.2.1, h.2.2]

/-- An item that hold found in hand: its effect, and its command stopped behind it. -/
theorem itemUnit_of_inHand {i : Instr} {x : Executing} {s : State} (h : InHand i x s) (f : State → CodeValue × State) :
    itemUnit i f s = stopCommand x (f s).2 := by simp [itemUnit, unitReady_of_inHand h, State.running, h.1]

/-- A command applied whole that hold found in hand: its effect, and the command stopped behind it. -/
theorem wholeUnit_of_inHand {i : Instr} {x : Executing} {s : State} (h : InHand i x s) (f : State → WholeOutcome × State) :
    wholeUnit i f s = stopCommand x (f s).2 := by simp [wholeUnit, unitReady_of_inHand h, State.running, h.1]

@[simp] theorem slotOf_val (m : SlotId) : slotOf m.val = some m := by simp [slotOf]

theorem slotOf_above {n : Nat} (h : 15 < n) : slotOf n = none := by simp [slotOf]; omega

/-! ## Reads (R51) -/

theorem storeOpen_not_clearing {s : State} (h : storeOpen s) : s.sst.store ≠ .clearing := by
  rcases h with h | h <;> rw [h] <;> decide

theorem storeOpen_not_failed {s : State} (h : storeOpen s) : s.sst.store ≠ .failed := by
  rcases h with h | h <;> rw [h] <;> decide

theorem readRow_readable {c : Nat} {s : State} (hc : s.sst.store ≠ .clearing) (h : rowReadable c s) :
    readRow c s = (some (rowAt s c).content, s) := by
  unfold readRow
  rw [if_neg hc, h.1]
  simp only [Bool.false_eq_true, if_false, h.2, if_true]

theorem readRecord_readable {n : Nat} {s : State} (hc : s.sst.store ≠ .clearing) (h : recordReadable n s) :
    readRecord n s = (some (recordAt s n).content, s) := by
  unfold readRecord
  rw [if_neg hc, h.1]
  simp only [Bool.false_eq_true, if_false, h.2, if_true]

theorem readRow_poisoned {c : Nat} {s : State} (h : isPoisoned s .row c = true) : readRow c s = (none, s) := by
  unfold readRow
  split
  · rfl
  · simp

theorem readRecord_poisoned {n : Nat} {s : State} (h : isPoisoned s .seat n = true) : readRecord n s = (none, s) := by
  unfold readRecord
  split
  · rfl
  · simp

/-- What failing to read a row means: CLEARING, listed, or a digest failure (R51, R52). -/
theorem readRow_failing {c : Nat} {s : State} (hc : s.sst.store ≠ .clearing) (hp : isPoisoned s .row c = false)
    (hd : rowDigest (rowAt s c).content ≠ (rowAt s c).digest) : readRow c s = (none, digestFailure .row c s) := by
  unfold readRow
  rw [if_neg hc, hp]
  simp only [Bool.false_eq_true, if_false, hd]

/-- What failing to read a record means (R51, R52). -/
theorem readRecord_failing {n : Nat} {s : State} (hc : s.sst.store ≠ .clearing) (hp : isPoisoned s .seat n = false)
    (hd : recordDigest (recordAt s n).content ≠ (recordAt s n).digest) :
    readRecord n s = (none, digestFailure .seat n s) := by
  unfold readRecord
  rw [if_neg hc, hp]
  simp only [Bool.false_eq_true, if_false, hd]

/-- With room on the list of an open store, what fails is listed (R52). -/
theorem digestFailure_room {k : ItemKind} {i : Nat} {s : State} (h : storeOpen s) (hl : s.sst.poison.length < 64) :
    digestFailure k i s = poisonItem k i s := by
  unfold digestFailure
  rcases h with h | h <;> rw [h] <;> simp only [hl, if_true]

/-- Without room in READY the store fails (R52, R65). -/
theorem digestFailure_full {k : ItemKind} {i : Nat} {s : State} (h : s.sst.store = .ready) (hl : ¬s.sst.poison.length < 64) :
    digestFailure k i s = takeFault .poisonOverflow i k (storeFail i s) := by
  unfold digestFailure
  rw [h]
  simp only [hl, if_false]

/-- In FAILED nothing is listed (R52). -/
theorem digestFailure_failed {k : ItemKind} {i : Nat} {s : State} (h : s.sst.store = .failed) :
    digestFailure k i s = takeFault .poisonOverflow i k s := by
  unfold digestFailure
  rw [h]

/-- A report does not look at the Seat Store. -/
theorem offer_setSst (b : ReportBody) (x : Sst) (s : State) : offer b { s with sst := x } = { offer b s with sst := x } := by
  unfold offer
  dsimp only
  by_cases h : s.rpu.places < 64
  · rw [if_pos h, if_pos h]
    rfl
  · rw [if_neg h, if_neg h]
    cases b.urgent <;> cases dropLastRoutine s.rpu.entries <;> rfl

/-- A report offered to a state that is another with another Seat Store. -/
theorem offer_of_setSst {b : ReportBody} {x : Sst} {s t : State} (h : t = { s with sst := x }) :
    offer b t = { offer b s with sst := x } := h ▸ offer_setSst b x s

/-- A fault does not look at the Seat Store. -/
theorem takeFault_setSst (c : FaultClass) (i : Nat) (k : ItemKind) (x : Sst) (s : State) :
    takeFault c i k { s with sst := x } = { takeFault c i k s with sst := x } := by
  unfold takeFault
  by_cases h : s.rpu.fault.held = true
  · by_cases g : s.rpu.fault.marks.getLsbD c.code = true
    · simp only [h, g, if_true]
    · simp only [h, g, if_true, Bool.false_eq_true, if_false]
      exact offer_of_setSst rfl
  · simp only [h, Bool.false_eq_true, if_false]
    exact offer_of_setSst rfl

/-- A poisoned record joins the list with its fault, and nothing else changes (R52, R53). -/
theorem poisonItem_seat (i : Nat) (s : State) : poisonItem .seat i s = { takeFault .seatCheck i .seat s with
    sst := { s.sst with poison := s.sst.poison ++ [{ kind := .seat, index := i }] } } := takeFault_setSst ..

/-- What fails in READY reports alone: every other block stays (R52, R65). -/
theorem readyFaults_frame (l : List PoisonEntry) (s : State) :
    (readyFaults l s).sst = s.sst ∧ (readyFaults l s).mtb = s.mtb ∧ (readyFaults l s).epc = s.epc ∧
    (readyFaults l s).tbu = s.tbu ∧ (readyFaults l s).settings = s.settings ∧ (readyFaults l s).gcr = s.gcr := by
  have hc : ∀ l s, (checkFaults l s).sst = s.sst ∧ (checkFaults l s).mtb = s.mtb ∧ (checkFaults l s).epc = s.epc ∧
      (checkFaults l s).tbu = s.tbu ∧ (checkFaults l s).settings = s.settings ∧ (checkFaults l s).gcr = s.gcr := by
    intro l s
    unfold checkFaults
    refine ⟨?_, ?_, ?_, ?_, ?_, ?_⟩ <;> exact foldl_keeps _ (by intro a b; simp) _ _
  have ho : ∀ l s, (overflowFaults l s).sst = s.sst ∧ (overflowFaults l s).mtb = s.mtb ∧ (overflowFaults l s).epc = s.epc ∧
      (overflowFaults l s).tbu = s.tbu ∧ (overflowFaults l s).settings = s.settings ∧ (overflowFaults l s).gcr = s.gcr := by
    intro l s
    unfold overflowFaults
    refine ⟨?_, ?_, ?_, ?_, ?_, ?_⟩ <;> exact foldl_keeps _ (by intro a b; simp) _ _
  unfold readyFaults
  split
  · exact hc l s
  · simp [ho, hc]

theorem oldRow_isSome (c : Nat) (s : State) : (oldRow c s).isSome = true ↔ rowReadable c s := by
  unfold oldRow rowReadable
  cases hp : isPoisoned s .row c
  · by_cases hd : rowDigest (rowAt s c).content = (rowAt s c).digest
    · simp only [hd, if_true, Bool.false_eq_true, if_false, Option.isSome_some, and_self]
    · simp only [hd, if_false, Bool.false_eq_true, Option.isSome_none, and_false]
  · simp

theorem oldRow_readable {c : Nat} {s : State} (h : rowReadable c s) : oldRow c s = some (rowAt s c).content := by
  unfold oldRow
  rw [h.1]
  simp only [Bool.false_eq_true, if_false, h.2, if_true]

theorem oldRow_unreadable {c : Nat} {s : State} (h : ¬rowReadable c s) : oldRow c s = none := by
  rw [← oldRow_isSome] at h
  simpa using h

theorem oldRecord_isSome (n : Nat) (s : State) : (oldRecord n s).isSome = true ↔ recordReadable n s := by
  unfold oldRecord recordReadable
  cases hp : isPoisoned s .seat n
  · by_cases hd : recordDigest (recordAt s n).content = (recordAt s n).digest
    · simp only [hd, if_true, Bool.false_eq_true, if_false, Option.isSome_some, and_self]
    · simp only [hd, if_false, Bool.false_eq_true, Option.isSome_none, and_false]
  · simp

/-! ## Writes (R50, R56, R63) -/

theorem rowsWf {s : State} (h : memoryWf s = true) : sparseWf clearedRow s.sst.rows = true := by
  simp only [memoryWf, Bool.and_eq_true] at h; exact h.1.1.1.1.1

theorem recordsWf {s : State} (h : memoryWf s = true) : sparseWf clearedRecord s.sst.records = true := by
  simp only [memoryWf, Bool.and_eq_true] at h; exact h.1.1.1.2

theorem pidMapWf {s : State} (h : memoryWf s = true) : sparseWf PidClass.pass s.siu.pidMap = true := by
  simp only [memoryWf, Bool.and_eq_true] at h; exact h.1.2

theorem continuityWf {s : State} (h : memoryWf s = true) : sparseWf (0 : BitVec 4) s.siu.continuity = true := by
  simp only [memoryWf, Bool.and_eq_true] at h; exact h.2

/-- A row write changes that row, the signature and the accumulator, and nothing else (R50, R56, R63). -/
theorem writeRow_eq (c : Nat) (r : RowImage) (s : State) : writeRow c r s = { s with sst := { s.sst with
    rows := sparseSet clearedRow s.sst.rows c { content := r, digest := rowDigest r }
    signature := s.sst.signature ^^^ (rowAt s c).digest ^^^ rowDigest r
    accumulator := if verifyPassed s c then s.sst.accumulator ^^^ (rowAt s c).digest ^^^ rowDigest r
                   else s.sst.accumulator } } := rfl

/-- A record write changes that record, the signature and the accumulator, and nothing else (R50, R56, R63). -/
theorem writeRecord_eq (n : Nat) (q : RecordImage) (s : State) : writeRecord n q s = { s with sst := { s.sst with
    records := sparseSet clearedRecord s.sst.records n { content := q, digest := recordDigest q }
    signature := s.sst.signature ^^^ (recordAt s n).digest ^^^ recordDigest q
    accumulator := if verifyPassed s (n / 32) then s.sst.accumulator ^^^ (recordAt s n).digest ^^^ recordDigest q
                   else s.sst.accumulator } } := rfl

theorem rowAt_of_rows {s t : State} (h : t.sst.rows = s.sst.rows) (c : Nat) : rowAt t c = rowAt s c := by
  unfold rowAt; rw [h]

theorem recordAt_of_records {s t : State} (h : t.sst.records = s.sst.records) (n : Nat) : recordAt t n = recordAt s n := by
  unfold recordAt; rw [h]

theorem writeRow_becomes {c : Nat} {r : RowImage} {s : State} (h : sparseWf clearedRow s.sst.rows = true) :
    rowBecomes c r s (writeRow c r s) := by
  rw [writeRow_eq]
  refine ⟨?_, fun d hd => ?_⟩
  · unfold rowAt; rw [sparseGet_set h]; simp
  · unfold rowAt; exact sparseGet_set_ne hd

theorem writeRecord_becomes {n : Nat} {q : RecordImage} {s : State} (h : sparseWf clearedRecord s.sst.records = true) :
    recordBecomes n q s (writeRecord n q s) := by
  rw [writeRecord_eq]
  refine ⟨?_, fun d hd => ?_⟩
  · unfold recordAt; rw [sparseGet_set h]; simp
  · unfold recordAt; exact sparseGet_set_ne hd

@[simp] theorem writeRow_recordAt (c : Nat) (r : RowImage) (s : State) (n : Nat) :
    recordAt (writeRow c r s) n = recordAt s n := by rw [writeRow_eq]; rfl

@[simp] theorem writeRecord_rowAt (n : Nat) (q : RecordImage) (s : State) (c : Nat) :
    rowAt (writeRecord n q s) c = rowAt s c := by rw [writeRecord_eq]; rfl

end Sys2Proof.Machine
end

