-- ==== Sys2Proof/Laws/Items.lean ====
section
/-! SUPPORT. Seat items on readable rows and records, and the write of a row and a record together (R77, R78). -/

namespace Sys2Proof.Machine

/-- Checks 2 and 3 of R77 pass (R77). -/
theorem seatRefusal_of_open {seat : Nat} {s : State} (h : seatOpen seat s) : seatRefusal seat s = none := by
  unfold seatRefusal
  rw [if_neg (by have := h.1; omega), if_neg (storeOpen_not_clearing h.2)]

/-- An item that reads a readable row goes on with its content (R77). -/
theorem withRow_readable {seat : Nat} {s : State} (hs : seatOpen seat s) (hr : rowReadable (seat / 32) s)
    (f : RowImage → State → CodeValue × State) : withRow seat f s = f (rowAt s (seat / 32)).content s := by
  unfold withRow
  simp only [seatRefusal_of_open hs, readRow_readable (storeOpen_not_clearing hs.2) hr, if_neg (storeOpen_not_failed hs.2)]

/-- An item that reads a readable record goes on with its content (R77). -/
theorem withRecord_readable {seat : Nat} {s : State} (hs : seatOpen seat s) (hq : recordReadable seat s)
    (f : RecordImage → State → CodeValue × State) : withRecord seat f s = f (recordAt s seat).content s := by
  unfold withRecord
  simp only [seatRefusal_of_open hs, readRecord_readable (storeOpen_not_clearing hs.2) hq,
    if_neg (storeOpen_not_failed hs.2)]

/-- An item that reads both goes on with both contents (R77). -/
theorem withBoth_readable {seat : Nat} {s : State} (hs : seatOpen seat s) (hr : rowReadable (seat / 32) s)
    (hq : recordReadable seat s) (f : RowImage → RecordImage → State → CodeValue × State) :
    withBoth seat f s = f (rowAt s (seat / 32)).content (recordAt s seat).content s := by
  have h1 := storeOpen_not_clearing hs.2
  unfold withBoth
  simp only [seatRefusal_of_open hs, readRow_readable h1 hr, readRecord_readable h1 hq, if_neg (storeOpen_not_failed hs.2)]

/-- Row and record written together change no field but the four of the store (R78). -/
theorem writeBoth_eq (seat : Nat) (r : RowImage) (q : RecordImage) (s : State) :
    writeBoth seat r q s = { s with sst := { s.sst with
      rows := (writeBoth seat r q s).sst.rows, records := (writeBoth seat r q s).sst.records
      signature := (writeBoth seat r q s).sst.signature, accumulator := (writeBoth seat r q s).sst.accumulator } } := rfl

/-- What row and record written together leave stored (R50, R78). -/
theorem writeBoth_becomes (seat : Nat) (r : RowImage) (q : RecordImage) (s : State) (hm : memoryWf s = true) :
    rowBecomes (seat / 32) r s (writeBoth seat r q s) ∧ recordBecomes seat q s (writeBoth seat r q s) := by
  refine ⟨⟨(writeRecord_rowAt ..).trans (writeRow_becomes (rowsWf hm)).1, fun d hd =>
    (writeRecord_rowAt ..).trans ((writeRow_becomes (rowsWf hm)).2 d hd)⟩, ?_⟩
  have h : (writeRow (seat / 32) r s).sst.records = s.sst.records := rfl
  have b := writeRecord_becomes (n := seat) (q := q) (s := writeRow (seat / 32) r s) (by rw [h]; exact recordsWf hm)
  exact ⟨b.1, fun n hn => (b.2 n hn).trans (writeRow_recordAt ..)⟩

/-- The signature after row and record are written together (R56). -/
theorem writeBoth_signature (seat : Nat) (r : RowImage) (q : RecordImage) (s : State) :
    (writeBoth seat r q s).sst.signature = s.sst.signature ^^^ (rowAt s (seat / 32)).digest ^^^ rowDigest r ^^^
      (recordAt s seat).digest ^^^ recordDigest q := by
  unfold writeBoth
  rw [writeRecord_eq]
  simp only [writeRow_recordAt]
  rw [writeRow_eq]

/-- Where rows are the same, what a row has become carries over. -/
theorem rowBecomes_of {c : Nat} {r : RowImage} {s t u : State} (h : rowBecomes c r s t) (hu : u.sst.rows = t.sst.rows) :
    rowBecomes c r s u :=
  ⟨(rowAt_of_rows hu c).trans h.1, fun d hd => (rowAt_of_rows hu d).trans (h.2 d hd)⟩

/-- Where records are the same, what a record has become carries over. -/
theorem recordBecomes_of {n : Nat} {q : RecordImage} {s t u : State} (h : recordBecomes n q s t)
    (hu : u.sst.records = t.sst.records) : recordBecomes n q s u :=
  ⟨(recordAt_of_records hu n).trans h.1, fun d hd => (recordAt_of_records hu d).trans (h.2 d hd)⟩

/-- Slot of the match table and epoch records do not see a store write. -/
theorem writeBoth_record (seat : Nat) (r : RowImage) (q : RecordImage) (s : State) (m : SlotId) :
    (writeBoth seat r q s).record m = s.record m := record_of_epc rfl m

end Sys2Proof.Machine
end

