-- ==== Sys2Proof/Laws/Power.lean ====
section
/-! SUPPORT. The operations of the units do not read the supplies: each answers the same whatever Power holds. -/

namespace Sys2Proof.Machine

/-- The state with other supplies. -/
def State.withPower (s : State) (p : Power) : State := { s with power := p }

/-! ## What is read of a state with other supplies -/

@[simp] theorem withPower_siu (s : State) (p : Power) : (s.withPower p).siu = s.siu := rfl
@[simp] theorem withPower_out (s : State) (p : Power) : (s.withPower p).out = s.out := rfl
@[simp] theorem withPower_tbu (s : State) (p : Power) : (s.withPower p).tbu = s.tbu := rfl
@[simp] theorem withPower_mtb (s : State) (p : Power) : (s.withPower p).mtb = s.mtb := rfl
@[simp] theorem withPower_epc (s : State) (p : Power) : (s.withPower p).epc = s.epc := rfl
@[simp] theorem withPower_sst (s : State) (p : Power) : (s.withPower p).sst = s.sst := rfl
@[simp] theorem withPower_gcr (s : State) (p : Power) : (s.withPower p).gcr = s.gcr := rfl
@[simp] theorem withPower_ina (s : State) (p : Power) : (s.withPower p).ina = s.ina := rfl
@[simp] theorem withPower_cmu (s : State) (p : Power) : (s.withPower p).cmu = s.cmu := rfl
@[simp] theorem withPower_settings (s : State) (p : Power) : (s.withPower p).settings = s.settings := rfl
@[simp] theorem withPower_rpu (s : State) (p : Power) : (s.withPower p).rpu = s.rpu := rfl
@[simp] theorem withPower_power (s : State) (p : Power) : (s.withPower p).power = p := rfl
@[simp] theorem withPower_draws (s : State) (p : Power) : (s.withPower p).draws = s.draws := rfl
@[simp] theorem withPower_frees (s : State) (p : Power) : (s.withPower p).frees = s.frees := rfl
@[simp] theorem withPower_pending (s : State) (p : Power) : (s.withPower p).pending = s.pending := rfl
@[simp] theorem withPower_slot (s : State) (p : Power) (m : SlotId) : (s.withPower p).slot m = s.slot m := rfl
@[simp] theorem withPower_live (s : State) (p : Power) (m : SlotId) : (s.withPower p).live m = s.live m := rfl
@[simp] theorem withPower_record (s : State) (p : Power) (m : SlotId) : (s.withPower p).record m = s.record m := rfl
@[simp] theorem withPower_granting (s : State) (p : Power) (m : SlotId) : (s.withPower p).granting m = s.granting m := rfl
@[simp] theorem withPower_grantingWith (s : State) (p : Power) (f : FailPolicy) (m : SlotId) :
    (s.withPower p).grantingWith f m = s.grantingWith f m := rfl
@[simp] theorem withPower_carouselHolds (s : State) (p : Power) (m : SlotId) (e : BitVec 16) :
    (s.withPower p).carouselHolds m e = s.carouselHolds m e := rfl
@[simp] theorem withPower_now (s : State) (p : Power) : (s.withPower p).now = s.now := rfl
@[simp] theorem withPower_stamp (s : State) (p : Power) : (s.withPower p).stamp = s.stamp := rfl
@[simp] theorem withPower_rowAt (s : State) (p : Power) (c : Nat) : rowAt (s.withPower p) c = rowAt s c := rfl
@[simp] theorem withPower_recordAt (s : State) (p : Power) (n : Nat) : recordAt (s.withPower p) n = recordAt s n := rfl
@[simp] theorem withPower_isPoisoned (s : State) (p : Power) (k : ItemKind) (i : Nat) :
    isPoisoned (s.withPower p) k i = isPoisoned s k i := rfl
@[simp] theorem withPower_oldRow (s : State) (p : Power) (c : Nat) : oldRow c (s.withPower p) = oldRow c s := rfl
@[simp] theorem withPower_oldRecord (s : State) (p : Power) (n : Nat) : oldRecord n (s.withPower p) = oldRecord n s := rfl

/-- A choice whose two results answer the same with other supplies answers the same. -/
theorem ite_withPower {c : Prop} {i j : Decidable c} {p : Power} {a b a' b' : State} (ha : a' = a.withPower p)
    (hb : b' = b.withPower p) : @ite _ c i a' b' = (@ite _ c j a b).withPower p := by
  by_cases h : c <;> simp [h, ha, hb]

/-- What a unit answers, the state it leaves with other supplies. -/
def answerWithPower {α : Type} (p : Power) (x : α × State) : α × State := (x.1, x.2.withPower p)

/-- A choice whose two answers are the same with other supplies is the same. -/
theorem ite_answer {α : Type} {c : Prop} {i j : Decidable c} {p : Power} {a b a' b' : α × State}
    (ha : a' = answerWithPower p a) (hb : b' = answerWithPower p b) :
    @ite _ c i a' b' = answerWithPower p (@ite _ c j a b) := by
  by_cases h : c <;> simp [h, ha, hb]

/-- A fold of steps that do not read the supplies does not read them. -/
theorem foldl_withPower {β : Type} {g : State → β → State} {p : Power}
    (h : ∀ s b, g (s.withPower p) b = (g s b).withPower p) (l : List β) (s : State) :
    l.foldl g (s.withPower p) = (l.foldl g s).withPower p := by
  induction l generalizing s with
  | nil => rfl
  | cons b l ih => rw [List.foldl_cons, List.foldl_cons, h, ih]

/-! ## Updates, reports and notices -/

@[simp] theorem setSlot_withPower (s : State) (p : Power) (m : SlotId) (x : MatchSlot) :
    (s.withPower p).setSlot m x = (s.setSlot m x).withPower p := rfl

@[simp] theorem setEpochSlot_withPower (s : State) (p : Power) (m : SlotId) (x : EpochSlot) :
    (s.withPower p).setEpochSlot m x = (s.setEpochSlot m x).withPower p := rfl

@[simp] theorem setRecord_withPower (s : State) (p : Power) (m : SlotId) (r : EpochRecord) :
    (s.withPower p).setRecord m r = (s.setRecord m r).withPower p := rfl

@[simp] theorem setWordTimer_withPower (s : State) (p : Power) (m : SlotId) (x : WordTimer) :
    (s.withPower p).setWordTimer m x = (s.setWordTimer m x).withPower p := rfl

@[simp] theorem offer_withPower (b : ReportBody) (s : State) (p : Power) :
    offer b (s.withPower p) = (offer b s).withPower p := by
  unfold offer
  refine ite_withPower rfl (ite_withPower ?_ rfl)
  simp only [withPower_rpu]
  split <;> rfl

/-- A report offered to a state that is another with other supplies. -/
theorem offer_of_withPower {b : ReportBody} {s t : State} {p : Power} (h : t = s.withPower p) :
    offer b t = (offer b s).withPower p := h ▸ offer_withPower b s p

@[simp] theorem takeFault_withPower (c : FaultClass) (i : Nat) (k : ItemKind) (s : State) (p : Power) :
    takeFault c i k (s.withPower p) = (takeFault c i k s).withPower p := by
  unfold takeFault
  exact ite_withPower (ite_withPower rfl (offer_of_withPower rfl)) (offer_of_withPower rfl)

@[simp] theorem revoke_withPower (m : SlotId) (s : State) (p : Power) :
    revoke m (s.withPower p) = (revoke m s).withPower p := by
  unfold revoke
  refine ite_withPower ?_ rfl
  rw [withPower_record]
  split <;> rfl

@[simp] theorem freshNotice_withPower (c : Nat) (m : SlotId) (s : State) (p : Power) :
    freshNotice c m (s.withPower p) = (freshNotice c m s).withPower p := rfl

theorem revokeWhere_withPower {f : State → SlotId → Bool} (s : State) (p : Power) (h : ∀ m, f (s.withPower p) m = f s m) :
    revokeWhere f (s.withPower p) = (revokeWhere f s).withPower p := by
  unfold revokeWhere
  simp only [h]
  exact foldl_withPower (g := fun t m => if f s m then _ else t) (fun t m => ite_withPower (by simp) rfl) _ _

theorem freshWhere_withPower {f : State → SlotId → Bool} (c : Nat) (s : State) (p : Power)
    (h : ∀ m, f (s.withPower p) m = f s m) :
    freshWhere c f (s.withPower p) = (freshWhere c f s).withPower p := by
  unfold freshWhere
  simp only [h]
  exact foldl_withPower (g := fun t m => if f s m then _ else t) (fun t m => ite_withPower (by simp) rfl) _ _

/-! ## Slots -/

@[simp] theorem releaseClaims_withPower (m : SlotId) (s : State) (p : Power) :
    releaseClaims m (s.withPower p) = (releaseClaims m s).withPower p := by
  unfold releaseClaims
  rw [withPower_live]
  split <;> rfl

@[simp] theorem departGranting_withPower (m : SlotId) (s : State) (p : Power) :
    departGranting m (s.withPower p) = (departGranting m s).withPower p := by
  unfold departGranting
  rw [withPower_record]
  split
  · rfl
  · exact ite_withPower rfl (offer_of_withPower rfl)

@[simp] theorem stopWords_withPower (m : SlotId) (s : State) (p : Power) :
    stopWords m (s.withPower p) = (stopWords m s).withPower p := rfl

@[simp] theorem enterState_withPower (m : SlotId) (d : SlotState) (c : StateCause) (s : State) (p : Power) :
    enterState m d c (s.withPower p) = (enterState m d c s).withPower p := by simp [enterState]

@[simp] theorem enterEnded_withPower (m : SlotId) (t : StreamTime) (c : StateCause) (s : State) (p : Power) :
    enterEnded m t c (s.withPower p) = (enterEnded m t c s).withPower p := by simp [enterEnded]

@[simp] theorem enterClosed_withPower (m : SlotId) (c : StateCause) (s : State) (p : Power) :
    enterClosed m c (s.withPower p) = (enterClosed m c s).withPower p := by
  unfold enterClosed
  simp only [enterState_withPower, releaseClaims_withPower]
  exact congrArg (stopWords m) (ite_withPower (departGranting_withPower ..) rfl)

@[simp] theorem enterEmpty_withPower (m : SlotId) (c : StateCause) (s : State) (p : Power) :
    enterEmpty m c (s.withPower p) = (enterEmpty m c s).withPower p := by simp [enterEmpty]

@[simp] theorem queueWalk_withPower (r : Bool) (m : SlotId) (s : State) (p : Power) :
    queueWalk r m (s.withPower p) = (queueWalk r m s).withPower p := rfl

/-! ## The Seat Store -/

@[simp] theorem writeRow_withPower (c : Nat) (r : RowImage) (s : State) (p : Power) :
    writeRow c r (s.withPower p) = (writeRow c r s).withPower p := rfl

@[simp] theorem writeRecord_withPower (n : Nat) (q : RecordImage) (s : State) (p : Power) :
    writeRecord n q (s.withPower p) = (writeRecord n q s).withPower p := rfl

@[simp] theorem curePoison_withPower (k : ItemKind) (i : Nat) (s : State) (p : Power) :
    curePoison k i (s.withPower p) = (curePoison k i s).withPower p := rfl

@[simp] theorem settleSlot_withPower (w : Option Walk) (m : SlotId) (s : State) (p : Power) :
    settleSlot w m (s.withPower p) = (settleSlot w m s).withPower p := by
  unfold settleSlot
  simp only [withPower_slot, enterEmpty_withPower, offer_withPower, enterClosed_withPower]
  split <;> rfl

/-- The store's state and lists replaced. -/
theorem setSst_withPower (x : Sst) (s : State) (p : Power) :
    { s.withPower p with sst := x } = State.withPower { s with sst := x } p := rfl

@[simp] theorem enterClearing_withPower (s : State) (p : Power) :
    enterClearing (s.withPower p) = (enterClearing s).withPower p := by
  unfold enterClearing
  simp only [withPower_sst]
  rw [setSst_withPower, offer_withPower]
  exact revokeWhere_withPower _ _ fun _ => rfl

@[simp] theorem cutAndClear_withPower (s : State) (p : Power) :
    cutAndClear (s.withPower p) = (cutAndClear s).withPower p := by
  unfold cutAndClear
  simp only [withPower_sst]
  rw [setSst_withPower, foldl_withPower (fun s m => settleSlot_withPower _ m s p), enterClearing_withPower]

@[simp] theorem verifyLost_withPower (b : ReportBody) (s : State) (p : Power) :
    verifyLost b (s.withPower p) = (verifyLost b s).withPower p := by simp [verifyLost]

@[simp] theorem storeFail_withPower (i : Nat) (s : State) (p : Power) :
    storeFail i (s.withPower p) = (storeFail i s).withPower p := by
  unfold storeFail
  simp only [withPower_sst]
  rw [setSst_withPower, offer_withPower]
  exact revokeWhere_withPower _ _ fun _ => rfl

@[simp] theorem poisonItem_withPower (k : ItemKind) (i : Nat) (s : State) (p : Power) :
    poisonItem k i (s.withPower p) = (poisonItem k i s).withPower p := by
  unfold poisonItem
  simp only [withPower_sst]
  rw [setSst_withPower, takeFault_withPower]
  cases k
  · exact revokeWhere_withPower _ _ fun _ => rfl
  · rfl

@[simp] theorem digestFailure_withPower (k : ItemKind) (i : Nat) (s : State) (p : Power) :
    digestFailure k i (s.withPower p) = (digestFailure k i s).withPower p := by
  unfold digestFailure
  rw [withPower_sst]
  split
  · rfl
  · exact ite_withPower (poisonItem_withPower ..) (by simp)
  · exact ite_withPower (poisonItem_withPower ..) (by simp)
  · simp

@[simp] theorem readRow_withPower (c : Nat) (s : State) (p : Power) :
    readRow c (s.withPower p) = answerWithPower p (readRow c s) :=
  ite_answer rfl (ite_answer rfl (ite_answer rfl (by simp [answerWithPower])))

@[simp] theorem readRecord_withPower (n : Nat) (s : State) (p : Power) :
    readRecord n (s.withPower p) = answerWithPower p (readRecord n s) :=
  ite_answer rfl (ite_answer rfl (ite_answer rfl (by simp [answerWithPower])))

/-! ## Seat items and slots -/

theorem withRow_withPower {seat : Nat} {f : RowImage → State → CodeValue × State} {p : Power}
    (h : ∀ r s, f r (s.withPower p) = answerWithPower p (f r s)) (s : State) :
    withRow seat f (s.withPower p) = answerWithPower p (withRow seat f s) := by
  unfold withRow
  rw [show seatRefusal seat (s.withPower p) = seatRefusal seat s from rfl]
  split
  · rfl
  · simp only [readRow_withPower]
    refine ite_answer rfl ?_
    simp only [answerWithPower]
    split
    · exact h ..
    · rfl

theorem withRecord_withPower {seat : Nat} {f : RecordImage → State → CodeValue × State} {p : Power}
    (h : ∀ r s, f r (s.withPower p) = answerWithPower p (f r s)) (s : State) :
    withRecord seat f (s.withPower p) = answerWithPower p (withRecord seat f s) := by
  unfold withRecord
  rw [show seatRefusal seat (s.withPower p) = seatRefusal seat s from rfl]
  split
  · rfl
  · simp only [readRecord_withPower]
    refine ite_answer rfl ?_
    simp only [answerWithPower]
    split
    · exact h ..
    · rfl

theorem withBoth_withPower {seat : Nat} {f : RowImage → RecordImage → State → CodeValue × State} {p : Power}
    (h : ∀ r q s, f r q (s.withPower p) = answerWithPower p (f r q s)) (s : State) :
    withBoth seat f (s.withPower p) = answerWithPower p (withBoth seat f s) := by
  unfold withBoth
  rw [show seatRefusal seat (s.withPower p) = seatRefusal seat s from rfl]
  split
  · rfl
  · have hy : readRecord seat (answerWithPower p (readRow (seat / 32) s)).2 =
        answerWithPower p (readRecord seat (readRow (seat / 32) s).2) := readRecord_withPower ..
    simp only [readRow_withPower, hy]
    refine ite_answer rfl ?_
    simp only [answerWithPower]
    split
    · exact h ..
    · rfl

theorem onSlot_withPower {slot : Nat} {f : SlotId → State → WholeOutcome × State} {p : Power}
    (h : ∀ m s, f m (s.withPower p) = answerWithPower p (f m s)) (s : State) :
    onSlot slot f (s.withPower p) = answerWithPower p (onSlot slot f s) := by
  unfold onSlot
  split
  · rfl
  · exact h ..

end Sys2Proof.Machine
end

