-- ==== Sys2Proof/Laws/Time.lean ====
section
/-! SUPPORT. What a REFCLK period does: the frame of the counting, and the events that join the queue. -/

namespace Sys2Proof.Machine

/-- An element put at a place is the list with the element, in some order. -/
theorem putAt_perm (n : Nat) (i : Instr) (l : List Instr) : (putAt n i l).Perm (i :: l) := by
  unfold putAt
  exact List.perm_middle.trans (by rw [List.take_append_drop])

/-- Whatever order is chosen, the queue takes each due event once. -/
theorem arrange_perm (seed k : Nat) (l acc : List Instr) : (arrange seed k l acc).Perm (l ++ acc) := by
  induction l generalizing k acc with
  | nil => unfold arrange; simp
  | cons i l ih =>
    cases acc with
    | nil => unfold arrange; exact (ih _ _).trans (by simp)
    | cons a acc =>
      unfold arrange
      refine (ih _ _).trans ?_
      refine (List.Perm.append_left l (putAt_perm _ _ _)).trans ?_
      simp

/-- No SWEEP_AGE_INCREMENT stands at or behind the place that `pastAges` gives. -/
theorem no_age_past (l : List Instr) (m : SlotId) : .sweepAgeIncrement m ∉ l.drop (pastAges l) := by
  induction l with
  | nil => simp
  | cons i l ih =>
    unfold pastAges
    split
    · simpa using ih
    · rename_i h
      intro hm
      exact h (List.any_eq_true.mpr ⟨_, List.drop_zero ▸ hm, rfl⟩)

/-- A boundary put at a place that `firstPlace` allows has no SWEEP_AGE_INCREMENT behind it. -/
theorem boundary_behind_ages (l a b : List Instr) (n : Nat) (m : SlotId) (hb : .cryptoPeriodBoundary ∉ l)
    (h : putAt (firstPlace .cryptoPeriodBoundary l + n) .cryptoPeriodBoundary l = a ++ .cryptoPeriodBoundary :: b) :
    .sweepAgeIncrement m ∉ b := by
  unfold putAt firstPlace at h
  dsimp only at h
  have ha : a = l.take (pastAges l + n) := by
    rcases List.append_eq_append_iff.mp h with ⟨c, hc, hd⟩ | ⟨c, hc, hd⟩
    · cases c with
      | nil => simpa using hc
      | cons x c =>
        injection hd with hx hd
        exact absurd (List.mem_of_mem_drop (i := pastAges l + n) (by rw [hd]; simp)) hb
    · cases c with
      | nil => simpa using hc.symm
      | cons x c =>
        injection hd with hx hd
        subst hx
        exact absurd (List.mem_of_mem_take (i := pastAges l + n) (by rw [hc]; simp)) hb
  subst ha
  have hdrop := List.append_cancel_left h
  injection hdrop with _ hdrop
  subst hdrop
  rw [← List.drop_drop]
  exact fun hm => no_age_past l m (List.mem_of_mem_drop hm)

/-- A counted slot keeps its record. -/
@[simp] theorem count_keeps_record (x : EpochSlot) : x.count.record = x.record := by
  unfold EpochSlot.count
  split
  · split <;> rfl
  · rfl

/-- Counting fill changes the Stream Input Unit alone. -/
@[simp] theorem countFill_frame (s : State) :
    (countFill s).out = s.out ∧ (countFill s).tbu = s.tbu ∧ (countFill s).mtb = s.mtb ∧ (countFill s).epc = s.epc ∧
    (countFill s).sst = s.sst ∧ (countFill s).gcr = s.gcr ∧ (countFill s).ina = s.ina ∧ (countFill s).cmu = s.cmu ∧
    (countFill s).settings = s.settings ∧ (countFill s).rpu = s.rpu ∧ (countFill s).power = s.power ∧
    (countFill s).draws = s.draws ∧ (countFill s).frees = s.frees ∧ (countFill s).pending = s.pending := by
  unfold countFill
  split <;> simp

/-- Counting the silence changes the Stream Input Unit alone. -/
@[simp] theorem countSilence_frame (s : State) :
    (countSilence s).out = s.out ∧ (countSilence s).tbu = s.tbu ∧ (countSilence s).mtb = s.mtb ∧
    (countSilence s).epc = s.epc ∧ (countSilence s).sst = s.sst ∧ (countSilence s).gcr = s.gcr ∧
    (countSilence s).ina = s.ina ∧ (countSilence s).cmu = s.cmu ∧ (countSilence s).settings = s.settings ∧
    (countSilence s).rpu = s.rpu ∧ (countSilence s).power = s.power ∧ (countSilence s).draws = s.draws ∧
    (countSilence s).frees = s.frees ∧ (countSilence s).pending = s.pending := by
  unfold countSilence
  split <;> simp

/-- The period timer stands in the Timebase alone. -/
@[simp] theorem countPeriod_frame (s : State) :
    (countPeriod s).siu = s.siu ∧ (countPeriod s).out = s.out ∧ (countPeriod s).mtb = s.mtb ∧
    (countPeriod s).epc = s.epc ∧ (countPeriod s).sst = s.sst ∧ (countPeriod s).gcr = s.gcr ∧
    (countPeriod s).ina = s.ina ∧ (countPeriod s).cmu = s.cmu ∧ (countPeriod s).settings = s.settings ∧
    (countPeriod s).rpu = s.rpu ∧ (countPeriod s).power = s.power ∧ (countPeriod s).draws = s.draws ∧
    (countPeriod s).frees = s.frees ∧ (countPeriod s).pending = s.pending := by
  exact ⟨rfl, rfl, rfl, rfl, rfl, rfl, rfl, rfl, rfl, rfl, rfl, rfl, rfl, rfl⟩

/-- In hold the period timer changes the Timebase alone. -/
@[simp] theorem countHeldPeriod_frame (s : State) :
    (countHeldPeriod s).siu = s.siu ∧ (countHeldPeriod s).out = s.out ∧ (countHeldPeriod s).mtb = s.mtb ∧
    (countHeldPeriod s).epc = s.epc ∧ (countHeldPeriod s).sst = s.sst ∧ (countHeldPeriod s).gcr = s.gcr ∧
    (countHeldPeriod s).ina = s.ina ∧ (countHeldPeriod s).cmu = s.cmu ∧ (countHeldPeriod s).settings = s.settings ∧
    (countHeldPeriod s).rpu = s.rpu ∧ (countHeldPeriod s).power = s.power ∧ (countHeldPeriod s).draws = s.draws ∧
    (countHeldPeriod s).frees = s.frees ∧ (countHeldPeriod s).pending = s.pending := by
  unfold countHeldPeriod beginPeriod
  dsimp only
  split <;> simp

/-- The other timers of a running part stand in the sweep ages and the arbiter. -/
@[simp] theorem countTimers_frame (s : State) :
    (countTimers s).siu = s.siu ∧ (countTimers s).out = s.out ∧ (countTimers s).tbu = s.tbu ∧ (countTimers s).mtb = s.mtb ∧
    (countTimers s).sst = s.sst ∧ (countTimers s).gcr = s.gcr ∧ (countTimers s).cmu = s.cmu ∧
    (countTimers s).settings = s.settings ∧ (countTimers s).rpu = s.rpu ∧ (countTimers s).power = s.power ∧
    (countTimers s).draws = s.draws ∧ (countTimers s).frees = s.frees ∧ (countTimers s).pending = s.pending := by
  unfold countTimers
  simp

/-- A local tick counts in the Stream Input Unit, the Timebase, the sweep ages and the arbiter. -/
@[simp] theorem localTick_frame (s : State) :
    (localTick s).out = s.out ∧ (localTick s).mtb = s.mtb ∧ (localTick s).sst = s.sst ∧ (localTick s).gcr = s.gcr ∧
    (localTick s).cmu = s.cmu ∧ (localTick s).settings = s.settings ∧ (localTick s).rpu = s.rpu ∧
    (localTick s).power = s.power ∧ (localTick s).draws = s.draws ∧ (localTick s).frees = s.frees ∧
    (localTick s).pending = s.pending := by
  unfold localTick
  dsimp only
  split <;> simp

/-- A REFCLK period counts in the Stream Input Unit, the Timebase, the sweep ages and the arbiter. -/
@[simp] theorem refclk_frame (s : State) :
    (refclk s).out = s.out ∧ (refclk s).mtb = s.mtb ∧ (refclk s).sst = s.sst ∧ (refclk s).gcr = s.gcr ∧
    (refclk s).cmu = s.cmu ∧ (refclk s).settings = s.settings ∧ (refclk s).rpu = s.rpu ∧ (refclk s).power = s.power ∧
    (refclk s).draws = s.draws ∧ (refclk s).frees = s.frees ∧ (refclk s).pending = s.pending := by
  unfold refclk
  dsimp only
  split <;> simp

@[simp] theorem countTimers_record (s : State) (m : SlotId) : (countTimers s).record m = s.record m := by
  simp [countTimers, State.record, State.epochSlot]

@[simp] theorem localTick_record (s : State) (m : SlotId) : (localTick s).record m = s.record m := by
  unfold localTick
  dsimp only
  split
  · rw [countTimers_record]; exact record_of_epc (by simp) m
  · exact record_of_epc (by simp) m

/-- A REFCLK period leaves the epoch records as they were. -/
@[simp] theorem refclk_record (s : State) (m : SlotId) : (refclk s).record m = s.record m := by
  unfold refclk
  dsimp only
  split
  · rw [localTick_record]; exact record_of_epc (by simp) m
  · exact record_of_epc (by simp) m

end Sys2Proof.Machine
end

