-- ==== Sys2Proof/WellFormed.lean ====
section
/-! DEFINITION. Well-formed commands: operands no wider than the bytes that carry them (spec 12.3, 12.4), a packet of 188
bytes (R2). Values out of a field's meaning (a slot above 15, a seat above 1,048,575) are well formed: the part judges
them and answers with a code. -/

namespace Sys2Proof

/-- A match image whose fields fit their bytes (spec 12.4). -/
def MatchImage.wellFormed (i : MatchImage) : Bool :=
  decide (i.pidCount < 256) && i.pids.toList.all (fun p => decide (p < 65536)) && decide (i.wordPid < 65536) &&
  decide (i.saleOpen < 1099511627776) && decide (i.earlyClose < 1099511627776) && decide (i.showStart < 1099511627776) &&
  decide (i.previewLen < 65536) && decide (i.scheduledLen < 65536) && decide (i.lateCutoff < 65536) &&
  decide (i.overrunMax < 65536) && decide (i.endHold < 65536) && decide (i.earlyPrice < 65536) &&
  decide (i.standardPrice < 65536) && decide (i.lateFloor < 65536) && decide (i.failPolicy < 256)

/-- A slot field is one byte. -/
def slotFits (slot : Nat) : Bool := decide (slot < 256)

/-- A seat field is three bytes. -/
def seatFits (seat : Nat) : Bool := decide (seat < 16777216)

/-- A command whose operands fit the bytes that carry them. -/
def Instr.wellFormed : Instr → Bool
  | .syncCandidate _ => true
  | .checkSilenceTimeout => true
  | .lockedSilenceTimeout => true
  | .packetTaken p => p.length == 188
  | .fillSlot => true
  | .freeSlot => true
  | .grantMessageEmitted => true
  | .reportPacketEmitted => true
  | .sweepStep => true
  | .streamTimeAdvance => true
  | .holdoverEntered => true
  | .candidateTimeout => true
  | .cryptoPeriodBoundary => true
  | .sweepAgeIncrement _ => true
  | .wordMessageTimerExpiry _ => true
  | .statusTimerExpiry => true
  | .paceTimerExpiry => true
  | .walkStart => true
  | .clearWalkStep => true
  | .verifyWalkStep => true
  | .wipeWalkStep => true
  | .refundWalkStep => true
  | .commandStart => true
  | .defineMatch slot img => slotFits slot && img.wellFormed
  | .commitSchedule _ => true
  | .readMatch slot => slotFits slot
  | .finalWhistle slot => slotFits slot
  | .abandonMatch slot => slotFits slot
  | .clearSlot slot => slotFits slot
  | .setBlackout slot op regions =>
      slotFits slot && decide (op < 256) && decide (1 ≤ regions.length) && decide (regions.length ≤ 32)
  | .forceRollover slot => slotFits slot
  | .purchase seat slot mode => seatFits seat && slotFits slot && decide (mode < 256)
  | .refund seat slot => seatFits seat && slotFits slot
  | .withdraw seat slot => seatFits seat && slotFits slot
  | .suspend seat => seatFits seat
  | .resume seat => seatFits seat
  | .setRegion seat _ => seatFits seat
  | .topUpCredit seat amount => seatFits seat && decide (amount < 65536)
  | .clearSeatMarks seat => seatFits seat
  | .loadCohortRow cohort _ => decide (cohort < 65536)
  | .loadSeatRecords seat _ => seatFits seat
  | .querySeat seat => seatFits seat
  | .readPoisonList => true
  | .clearStore => true
  | .addHouseSeat seat => seatFits seat
  | .removeHouseSeat seat => seatFits seat
  | .readHouseList => true
  | .setPidClass pid cls => decide (pid < 65536) && decide (cls < 256)
  | .setSettings pairs =>
      decide (1 ≤ pairs.length) && decide (pairs.length ≤ 16) &&
      pairs.all (fun p => decide (p.1 < 256) && decide (p.2 < 4294967296))
  | .readSettings => true
  | .setRootKey _ => true
  | .releaseFault => true
  | .clearStatusMarks => true
  | .restart => true
  | .holdEntry => true
  | .retainedCheckConfirmed _ => true
  | .restartSelfReset => true
  | .resetn _ => true
  | .vbakLoss _ => true
  | .mainSupplyLoss _ => true

end Sys2Proof
end

