-- ==== Sys2Proof/Tests/Slice0.lean ====
section
/-! SUPPORT. Small tests: ill-formed commands refused, the spec's worked examples, and for each obligation with hypotheses the
states and operands that meet them. Expected values come from the spec's tables and examples or from hand calculation. -/

namespace Sys2Proof.Tests

set_option Elab.async false

open Sys2Proof Sys2Proof.Machine

/-! ## Well-formedness -/

/-- A match image that passes every check. -/
def goodImage : MatchImage :=
  { matchId := 7, pidCount := 1, pids := Vector.replicate 4 0x20, wordPid := 0x21, saleOpen := 90000, earlyClose := 180000
    showStart := 270000, previewLen := 900, scheduledLen := 6300, lateCutoff := 6300, overrunMax := 600, endHold := 60
    earlyPrice := 1500, standardPrice := 2000, lateFloor := 1200, failPolicy := 1, blackout := 0 }

theorem test_good_image : (Instr.defineMatch 15 goodImage).wellFormed = true := by decide
theorem test_short_packet : (Instr.packetTaken (List.replicate 187 0)).wellFormed = false := by decide +kernel
theorem test_wide_slot : (Instr.finalWhistle 256).wellFormed = false := by decide
theorem test_wide_seat : (Instr.suspend 16777216).wellFormed = false := by decide
theorem test_wide_mode : (Instr.purchase 0 0 256).wellFormed = false := by decide
theorem test_wide_operation : (Instr.setBlackout 0 256 [0]).wellFormed = false := by decide
theorem test_no_regions : (Instr.setBlackout 0 0 []).wellFormed = false := by decide
theorem test_many_regions : (Instr.setBlackout 0 0 (List.replicate 33 0)).wellFormed = false := by decide
theorem test_wide_amount : (Instr.topUpCredit 0 65536).wellFormed = false := by decide
theorem test_wide_cohort : (Instr.loadCohortRow 65536 zeroRow).wellFormed = false := by decide
theorem test_wide_pid : (Instr.setPidClass 65536 0).wellFormed = false := by decide
theorem test_wide_class : (Instr.setPidClass 0 256).wellFormed = false := by decide
theorem test_no_pairs : (Instr.setSettings []).wellFormed = false := by decide
theorem test_many_pairs : (Instr.setSettings (List.replicate 17 (1, 2))).wellFormed = false := by decide
theorem test_wide_setting : (Instr.setSettings [(256, 2)]).wellFormed = false := by decide
theorem test_wide_value : (Instr.setSettings [(1, 4294967296)]).wellFormed = false := by decide
theorem test_wide_pid_count : { goodImage with pidCount := 256 }.wellFormed = false := by decide
theorem test_wide_service_pid : { goodImage with pids := Vector.replicate 4 65536 }.wellFormed = false := by decide
theorem test_wide_word_pid : { goodImage with wordPid := 65536 }.wellFormed = false := by decide
theorem test_wide_sale_open : { goodImage with saleOpen := 1099511627776 }.wellFormed = false := by decide
theorem test_wide_early_close : { goodImage with earlyClose := 1099511627776 }.wellFormed = false := by decide
theorem test_wide_show_start : { goodImage with showStart := 1099511627776 }.wellFormed = false := by decide
theorem test_wide_preview : { goodImage with previewLen := 65536 }.wellFormed = false := by decide
theorem test_wide_scheduled : { goodImage with scheduledLen := 65536 }.wellFormed = false := by decide
theorem test_wide_cutoff : { goodImage with lateCutoff := 65536 }.wellFormed = false := by decide
theorem test_wide_overrun : { goodImage with overrunMax := 65536 }.wellFormed = false := by decide
theorem test_wide_end_hold : { goodImage with endHold := 65536 }.wellFormed = false := by decide
theorem test_wide_early_price : { goodImage with earlyPrice := 65536 }.wellFormed = false := by decide
theorem test_wide_standard_price : { goodImage with standardPrice := 65536 }.wellFormed = false := by decide
theorem test_wide_late_floor : { goodImage with lateFloor := 65536 }.wellFormed = false := by decide
theorem test_wide_policy : { goodImage with failPolicy := 256 }.wellFormed = false := by decide

/-! ## The spec's tables and worked examples -/

/-- R50: the check value that CRC-32 with these parameters gives for the digits 1 to 9. -/
theorem test_crc_check_value : crc32 [0x31, 0x32, 0x33, 0x34, 0x35, 0x36, 0x37, 0x38, 0x39] = 0xFC891918 := by
  decide +kernel

/-- Section 2.3.1, the four rows. -/
theorem test_modular_comparison :
    reached 8589900000 50000 = true ∧ signedDistance 8589900000 50000 = 84592 ∧
    reached 50000 8589900000 = false ∧ signedDistance 50000 8589900000 = -84592 ∧
    reached 1000000 1000000 = true ∧ signedDistance 1000000 1000000 = 0 ∧
    reached 100 4294967396 = false ∧ signedDistance 100 4294967396 = -4294967296 := by decide +kernel

/-- The record of section 5.9. -/
def record59 : MatchRecord :=
  { matchId := 7, servicePids := [0x20], wordPid := 0x21, saleOpen := 90000, earlyClose := 180000, showStart := 270000
    previewLen := 900, scheduledLen := 6300, lateCutoff := 6300, overrunMax := 600, endHold := 60, earlyPrice := 1500
    standardPrice := 2000, lateFloor := 1200, failPolicy := .closedPolicy, blackout := 1 <<< 17 }

/-- Section 5.9, the table of charges. -/
theorem test_late_charges :
    lateCharge record59 81000000 = 1715 ∧ lateCharge record59 207000000 = 1270 ∧ lateCharge record59 283500000 = 1200 ∧
    lateCharge record59 450000000 = 1200 ∧ lateCharge record59 567000000 = 1200 ∧ lateCharge record59 0 = 2000 ∧
    lateElapsed record59 (270000 - 90000000) = 0 ∧ lateElapsed record59 (270000 + 81000000) = 81000000 := by decide +kernel

/-- Section 5.11, steps 1, 2 and 5. -/
theorem test_credit_at_the_cap :
    addCredit 20000 19500 1270 = (20000, true) ∧ addCredit 20000 20000 100 = (20000, true) ∧
    addCredit 15000 20000 0 = (20000, false) := by decide

/-- Section 4.8: the signature after each of the two writes. -/
theorem test_signature_arithmetic :
    (0x5A3C0F11 : BitVec 32) ^^^ 0x1111AAAA ^^^ 0x2222BBBB = 0x690F1E00 ∧
    (0x690F1E00 : BitVec 32) ^^^ 0x0F0F0F0F ^^^ 0x12345678 ^^^ 0x7E21D4C3 ^^^ 0x0B9A6E55 = 0x018FFDE1 := by decide

/-- Section 0.6.3: seat 1,000,003 is member 3 of cohort 31,250. -/
theorem test_seat_numbering : 1000003 / 32 = 31250 ∧ memberOf 1000003 = 3 ∧ seatOf 31250 3 = 1000003 := by decide

/-! ## Small states -/

/-- Slot m with a state, the live record of section 5.9 and a fresh epoch record in a rollover state. -/
def withSlot (m : SlotId) (st : SlotState) (ro : RolloverState) (s : State) : State :=
  let e := freshRecord 0
  let r := { e with rollover := ro, pendingKey := if ro.rolling then some { serial := 3 } else none
                    passesLeft := if ro = .sweeping then 2 else 0, cause := if ro = .pending then some .notice else none }
  let x : MatchSlot := { state := st, live := some record59, staged := none
                         endMark := if st = .ended then some record59.scheduledEnd else none }
  ((s.setSlot m x).setEpochSlot m { record := some r, ageTicks := 90000 }).setWordTimer m
    { due := none, timer := if st.words then some 9000 else none }

/-- The Timebase TRACKING with stream time t. -/
def atTime (t : StreamTime) (s : State) : State :=
  { s with tbu := { s.tbu with state := .tracking, adoption := some { value := t, tick := s.tbu.tick }
                               holdoverSince := some s.tbu.tick } }

/-- The store in a state, no walk under way. -/
def inStore (st : StoreState) (s : State) : State := { s with sst := { s.sst with store := st, walk := none } }

/-- A walk under way. -/
def walking (k : WalkKind) (c : Nat) (s : State) : State :=
  { s with sst := { s.sst with walk := some { kind := k, cohort := c, rowSkips := 0, seatSkips := 0 } } }

/-- A command in execution whose one unit left is this row. -/
def running (i : Instr) : Executing :=
  { number := 9, kind := 9, quiet := false, unitCount := 1, todo := [i], codes := [] }

/-- The part with that command in execution. -/
def executing (i : Instr) (s : State) : State :=
  { s with cmu := { s.cmu with executing := some (running i) }, rpu := { s.rpu with reserved := true } }

/-- The row of cohort c as content gives it, with its digest. -/
def withRow (c : Nat) (r : RowImage) (s : State) : State :=
  { s with sst := { s.sst with rows := sparseSet clearedRow s.sst.rows c { content := r, digest := rowDigest r } } }

/-- A seat's record as content gives it, with its digest. -/
def withRecord (n : Nat) (q : RecordImage) (s : State) : State :=
  { s with sst := { s.sst with records := sparseSet clearedRecord s.sst.records n { content := q, digest := recordDigest q } } }

/-- The Poison List. -/
def poisoned (l : List PoisonEntry) (s : State) : State := { s with sst := { s.sst with poison := l } }

/-- The output with these positions and this packet in transmission. -/
def output (l : List OutPosition) (y : Option Sending) (s : State) : State :=
  { s with out := { positions := l, sending := y, sent := [] } }

/-- The part in a phase. -/
def inPhase (p : PartPhase) (s : State) : State := { s with power := { s.power with phase := p } }

/-- The lock state. -/
def locked (l : LockState) (s : State) : State := { s with siu := { s.siu with lock := l } }

/-- A packet on an identifier: header and payload, the third header byte as given. -/
def packet (pid : Nat) (b3 : BitVec 8) : List (BitVec 8) :=
  [0x47, BitVec.ofNat 8 (0x40 + pid / 256), BitVec.ofNat 8 pid, b3] ++ List.replicate 184 0x00

/-- An identifier's class. -/
def classed (pid : Nat) (c : PidClass) (s : State) : State :=
  { s with siu := { s.siu with pidMap := sparseSet .pass s.siu.pidMap pid c } }

/-- The stream path at a lock state, with a sync count, bytes to the next packet start and silent ticks. -/
def syncing (l : LockState) (count next silent : Nat) (s : State) : State :=
  { s with siu := { s.siu with lock := l, syncCount := count, toNextStart := next, silentTicks := silent } }

/-- A packet with its transport error bit set. -/
def badPacket (pid : Nat) : List (BitVec 8) := (packet pid 0x10).set 1 (BitVec.ofNat 8 (0x80 + pid / 256))

/-- A packet on the Clock PID whose adaptation field carries the reference 90,000. -/
def clockPacket : List (BitVec 8) :=
  [0x47, 0x01, 0x00, 0x30, 0x07, 0x10, 0x00, 0x00, 0xAF, 0xC8, 0x7E, 0x00] ++ List.replicate 176 0x00

/-- A packet of the Control PID whose body holds these bytes before its check word. -/
def controlPacket (head check : List (BitVec 8)) : List (BitVec 8) :=
  [0x47, 0x5F, 0xF0, 0x10] ++ (head ++ check ++ List.replicate (184 - (head ++ check).length) 0x00)

/-- A body of 21 bytes, number 9, kind RELEASE FAULT, without its check word. -/
def bodyHead : List (BitVec 8) := [0x00, 0x15, 0x00, 0x00, 0x00, 0x09, 0x1D, 0x00, 0x00, 0x00, 0x00, 0x00, 0x00]

/-- Its check word under the unit key. -/
def bodyCheck : List (BitVec 8) := beBytes 8 (Config.checkWord Config.unitKey bodyHead).toNat

/-! ## Witnesses: states and operands that meet the hypotheses of each statement -/

theorem witness_StepTakesFrontCommand :
    { State.reset with pending := [.freeSlot] }.pending = .freeSlot :: [] := rfl

theorem witness_IdleStepPassesOnePeriod :
    (inPhase .unpowered State.reset).pending = [] ∧ (inPhase .unpowered State.reset).power.phase = .unpowered ∧
    (∀ ph, ph ∈ [PartPhase.running, .finishing, .holding, .held] → (inPhase ph State.reset).pending = [] ∧
      (inPhase ph State.reset).power.phase ≠ .unpowered ∧ ¬tickNext (inPhase ph State.reset) ∧
      (let s := inPhase ph { State.reset with tbu := { Tbu.reset with refDivider := 299, periodTimer := 899999 } }
       tickNext s ∧ s.tbu.periodLength ≤ s.tbu.periodTimer + 1 ∧ (s.running = true ↔ ph = .running)) ∧
      (let s := inPhase ph { State.reset with tbu := { Tbu.reset with refDivider := 299, periodTimer := 899998 } }
       tickNext s ∧ s.tbu.periodTimer + 1 < s.tbu.periodLength)) ∧
    State.reset.streaming = true ∧ State.reset.siu.lock ≠ .locked ∧ (locked .locked State.reset).siu.lock = .locked ∧
    State.reset.record 3 = none ∧ ((withSlot 3 .live .sweeping State.reset).record 3).isSome = true := by
  decide +kernel

theorem witness_IdleStepPassesOnePeriod_due :
    fallsDue { State.reset with tbu := { Tbu.reset with refDivider := 299, periodTimer := 899999 } } .cryptoPeriodBoundary ∧
    fallsDue { State.reset with
      tbu := { Tbu.reset with refDivider := 299 }
      siu := { Siu.reset with lock := .locked, silentTicks := 899 } } .lockedSilenceTimeout :=
  ⟨⟨by decide, by decide, by decide⟩, by decide, by decide, by decide⟩

theorem witness_LockSilenceAndFill :
    (∀ l, l ∈ [syncing .hunt 0 0 0 State.reset, syncing .check 1 2 0 State.reset, syncing .check 1 1 0 State.reset,
      syncing .check 2 1 0 State.reset, syncing .locked 3 0 0 State.reset] → l.streaming = true) ∧
    (syncing .hunt 0 0 0 State.reset).siu.lock = .hunt ∧ 1 < (syncing .check 1 2 0 State.reset).siu.toNextStart ∧
    (syncing .check 1 1 0 State.reset).siu.toNextStart ≤ 1 ∧ (syncing .check 1 1 0 State.reset).siu.syncCount < 2 ∧
    2 ≤ (syncing .check 2 1 0 State.reset).siu.syncCount ∧ (syncing .check 2 1 0 State.reset).siu.lossFlag = false ∧
    (syncing .locked 3 0 0 State.reset).siu.lock = .locked ∧
    (syncing .check 1 5 900 State.reset).streaming = true ∧ 900 ≤ (syncing .check 1 5 900 State.reset).siu.silentTicks ∧
    900 ≤ (syncing .locked 3 0 900 State.reset).siu.silentTicks ∧ State.reset.siu.silentTicks < 900 ∧
    State.reset.siu.lock ≠ .locked ∧
    (let s := { State.reset with siu := { Siu.reset with fill := { elapsed := 675, created := 0, sinceLast := 675 } } }
     (s.siu.fill.created + 1) * 27000000 ≤ s.siu.fill.elapsed * s.settings.fillRate) ∧
    (let s := { State.reset with siu := { Siu.reset with fill := { elapsed := 674, created := 0, sinceLast := 674 } } }
     s.siu.fill.elapsed * s.settings.fillRate < (s.siu.fill.created + 1) * 27000000) := by decide +kernel

theorem witness_PacketFate :
    (∀ pid, pid ∈ [0x30, 0x31, 0x20, 0x21, 0x1FFF, 0x1FF1, 0x1FF2] →
      arrives (packet pid 0x10) (locked .locked State.reset) ∧ errorBit (packet pid 0x10) = false ∧
      noReference (packet pid 0x10) (locked .locked State.reset) ∧
      arrives (badPacket pid) (locked .locked State.reset) ∧ errorBit (badPacket pid) = true ∧
      pidOf (packet pid 0x10) = pid ∧ pidOf (badPacket pid) = pid) ∧
    State.reset.siu.classOf 0x30 = .pass ∧ State.reset.siu.classOf 0x1FFF = .null ∧
    State.reset.siu.classOf 0x1FF1 = .ownedReport ∧ State.reset.siu.classOf 0x1FF2 = .ownedGrant ∧
    (classed 0x31 .drop State.reset).siu.classOf 0x31 = .drop ∧
    (classed 0x20 (.service 3) State.reset).siu.classOf 0x20 = .service 3 ∧
    (classed 0x21 (.ownedWord 3) State.reset).siu.classOf 0x21 = .ownedWord 3 ∧
    (0x46 :: (packet 0x30 0x10).tail).length = 188 ∧ byteAt (0x46 :: (packet 0x30 0x10).tail) 0 ≠ 0x47 ∧
    (locked .locked State.reset).siu.badSyncs = 0 := by decide +kernel

theorem witness_ServicePacketScrambledOnAir :
    (∀ b, b ∈ [0x10, 0x90, 0x20] → arrives (packet 0x20 b) (locked .locked (classed 0x20 (.service 3)
        (withSlot 3 .live .steady State.reset))) ∧ errorBit (packet 0x20 b) = false ∧
      noReference (packet 0x20 b) (locked .locked State.reset) ∧ pidOf (packet 0x20 b) = 0x20) ∧
    scramblingField (packet 0x20 0x90) ≠ 0 ∧ scramblingField (packet 0x20 0x10) = 0 ∧
    payloadOffset (packet 0x20 0x10) = some 4 ∧ payloadOffset (packet 0x20 0x20) = none ∧
    ((withSlot 3 .live .steady State.reset).slot 3).state.onAir = true ∧
    ((withSlot 3 .preview .steady State.reset).slot 3).state.onAir = false ∧
    ((withSlot 3 .live .steady State.reset).record 3).isSome = true := by decide +kernel

theorem beBytes_length (n v : Nat) : (beBytes n v).length = n := by
  induction n generalizing v with
  | zero => rfl
  | succ n ih => simp [beBytes, ih]

/-- The last 8 bytes of a body spell the check word they were made from. -/
theorem body_check_holds :
    Config.checkWord State.reset.cmu.unitKey ((bodyHead ++ bodyCheck).take (21 - 8)) =
      BitVec.ofNat 64 (numAt (bodyHead ++ bodyCheck) (21 - 8) 8) := by
  have hlen : bodyHead.length = 13 := rfl
  have htake : (bodyHead ++ bodyCheck).take (21 - 8) = bodyHead := by
    rw [List.take_append_of_le_length (by simp [hlen])]; rfl
  have hbytes : bytesAt (bodyHead ++ bodyCheck) (21 - 8) 8 = bodyCheck := by
    unfold bytesAt
    rw [List.drop_append_of_le_length (by simp [hlen])]
    exact List.take_of_length_le (by simp [bodyHead, bodyCheck, beBytes_length])
  rw [htake]
  unfold numAt
  rw [hbytes]
  have h := (Config.checkWord Config.unitKey bodyHead).isLt
  apply BitVec.eq_of_toNat_eq
  simp only [State.reset, Cmu.reset, bodyCheck, beBytes, beNat, List.foldl, BitVec.toNat_ofNat]
  omega

/-- A packet whose body passes every check of intake but the number's and the queue's. -/
theorem witness_CommandBodyIntake_body :
    (payloadOf (controlPacket bodyHead bodyCheck)).take 21 = bodyHead ++ bodyCheck ∧
    payloadStartBit (controlPacket bodyHead bodyCheck) = true ∧
    numAt (payloadOf (controlPacket bodyHead bodyCheck)) 0 2 = 21 ∧
    (payloadOf (controlPacket bodyHead bodyCheck)).length = 184 := by
  have hc : bodyCheck.length = 8 := beBytes_length _ _
  refine ⟨?_, rfl, rfl, ?_⟩
  · show List.take 21 (bodyHead ++ bodyCheck ++ _) = _
    rw [List.take_append_of_le_length (by simp [bodyHead, hc]), List.take_of_length_le (by simp [bodyHead, hc])]
  · show (bodyHead ++ bodyCheck ++ List.replicate (184 - (bodyHead ++ bodyCheck).length) (0 : BitVec 8)).length = 184
    rw [List.length_append, List.length_replicate, List.length_append, hc]
    rfl

theorem witness_CommandBodyIntake :
    State.reset.siu.classOf 0x1FF0 = .control ∧ (inPhase .holding State.reset).running = false ∧
    State.reset.running = true ∧ pidOf (packet 0x1FF0 0x10) = 0x1FF0 ∧ payloadStartBit (packet 0x1FF0 0x10) = true ∧
    arrives (packet 0x1FF0 0x10) (locked .locked State.reset) ∧ errorBit (packet 0x1FF0 0x10) = false ∧
    noReference (packet 0x1FF0 0x10) State.reset ∧ numAt (payloadOf (packet 0x1FF0 0x10)) 0 2 < 21 ∧
    (payloadOf (packet 0x1FF0 0x20)).length < 2 ∧ BitVec.ofNat 32 (numAt bodyHead 2 4) = 9 ∧
    State.reset.cmu.lastAccepted < 9 ∧ State.reset.cmu.queue.length < 8 ∧
    (9 : BitVec 32) ≤ { State.reset.cmu with lastAccepted := 9 }.lastAccepted ∧
    8 ≤ { State.reset.cmu with queue := List.replicate 8 { number := 1, body := [] } }.queue.length := by decide +kernel

theorem witness_ClockReferenceTaken :
    memoryWf (locked .locked State.reset) = true ∧ arrives clockPacket (locked .locked State.reset) ∧
    errorBit clockPacket = false ∧ State.reset.running = true ∧
    clockBase clockPacket = some 90000 ∧ pidOf clockPacket = State.reset.settings.clockPid ∧
    State.reset.siu.classOf (pidOf clockPacket) = .pass ∧ State.reset.now = none ∧
    (inPhase .holding State.reset).running = false ∧ arrives clockPacket (inPhase .holding (locked .locked State.reset)) ∧
    (let s := atTime 89100 State.reset
     { s with tbu := { s.tbu with state := .holdover } }.now = some 89100) ∧
    (atTime 89100 State.reset).now = some 89100 ∧ (signedDistance 89100 90000).natAbs ≤ 900 ∧
    900 < (signedDistance 89099 90000).natAbs ∧ (atTime 89099 State.reset).tbu.candidate = none ∧
    (let s := { State.reset with tbu := { Tbu.reset with candidate := some { value := 89100, tick := 0, count := 1 } } }
     ∀ c, s.tbu.candidate = some c → (signedDistance (c.value + (s.tbu.tick - c.tick)) 90000).natAbs ≤ 900 ∧
       900 < (signedDistance (c.value + (s.tbu.tick - c.tick)) 90001).natAbs ∧ c.count < 2 ∧
       2 ≤ { c with count := 2 }.count) := by
  refine ⟨by decide +kernel, by decide +kernel, by decide +kernel, by decide, by decide +kernel, by decide +kernel, by decide +kernel,
    by decide, by decide, by decide +kernel, by decide +kernel, by decide +kernel, by decide, by decide, by decide, ?_⟩
  intro s c h
  cases h
  decide +kernel

/-- A free slot at the head of the output, nothing queued for report, slot 3 LIVE with a fresh epoch record. -/
def atFreeSlot : State :=
  output [.free .removed] none (withSlot 3 .live .steady { State.reset with rpu := { Rpu.reset with entries := [] } })

theorem witness_FreeSlotWordMessage :
    (let s := atFreeSlot.setWordTimer 3 { due := some 0, timer := some 0 }
     memoryWf s = true ∧ atFree .removed [] s ∧ firstDue 3 s ∧ s.live 3 = some record59 ∧
       s.record 3 = some (freshRecord 0)) := by decide +kernel

theorem witness_FreeSlotReportPid :
    memoryWf atFreeSlot = true ∧ atFree .removed [] atFreeSlot ∧ noWordDue atFreeSlot ∧
    atFreeSlot.ina.statusDue = false ∧ { atFreeSlot.ina with statusDue := true }.statusDue = true ∧
    { atFreeSlot with rpu := Rpu.reset }.rpu.entries ≠ [] := by decide +kernel

/-- A sweep packet of one entry. -/
def oneEntry : List GrantEntry :=
  [{ cohort := 0, slot := 3, matchId := 7, epoch := 0, mask := 1, wrapped := 0 }]

/-- Slot 3 granting to a house seat, and one pair of it in the Fresh Queue. -/
def freshReady : State :=
  { atFreeSlot with gcr := { Gcr.reset with fresh := [{ cohort := 0, slot := 3, left := 1 }] }
                    ina := { atFreeSlot.ina with credits := 1 }, sst := { Sst.reset with house := [0] } }

theorem witness_FreeSlotGrantOrNull :
    memoryWf freshReady = true ∧ atFree .removed [] freshReady ∧ onlyGrants freshReady ∧ 0 < freshReady.ina.credits ∧
    freshReady.running = true ∧ freshReady.gcr.fresh ≠ [] ∧ freshReady.gcr.ready = none ∧
    (freshBuild (afterTake [] freshReady)).1 ≠ [] ∧
    (let s := { freshReady with sst := Sst.reset }
     (freshBuild (afterTake [] s)).1 = [] ∧ onlyGrants s ∧ 0 < s.ina.credits ∧
       { s with gcr := { s.gcr with ready := some { entries := oneEntry, passEnd := true } } }.gcr.ready.isSome = true) ∧
    (let s := { freshReady with
       gcr := { Gcr.reset with fresh := freshReady.gcr.fresh, ready := some { entries := oneEntry, passEnd := true } }
       ina := { freshReady.ina with freshRun := 4 } }
     s.gcr.ready = some { entries := oneEntry, passEnd := true } ∧ s.settings.freshRunLimit ≤ s.ina.freshRun ∧
       onlyGrants s ∧ 0 < s.ina.credits) ∧
    (let s := { atFreeSlot with settings := { Settings.default with inputFill := .null } }
     s.paceLifted = false ∧ s.ina.credits = 0 ∧ onlyGrants s) ∧
    onlyGrants atFreeSlot ∧ atFreeSlot.gcr.ready = none ∧ atFreeSlot.gcr.fresh = [] := by decide +kernel

theorem witness_FreshBuildTakesPairsInOrder :
    freshReady.gcr.building = [] ∧
    freshBuild freshReady =
      ((freshBuild freshReady).1, (freshBuild freshReady).2.1, (freshBuild freshReady).2.2) ∧
    (freshBuild freshReady).1.length = 1 := ⟨rfl, rfl, by decide +kernel⟩

theorem witness_InsertedPacketLayout :
    0x1FFE < 8192 ∧ (List.replicate 184 (0 : BitVec 8)).length ≤ 184 ∧ oneEntry.length < 256 ∧
    oneEntry[0]? = some { cohort := 0, slot := 3, matchId := 7, epoch := 0, mask := 1, wrapped := 0 } ∧
    State.reset.record 5 = none ∧ ((withSlot 3 .live .steady State.reset).record 3).isSome = true ∧
    (let es := List.replicate 2 ({ stamp := 5, body := .storeFailed 7 } : ReportEntry)
     es[1]? = some { stamp := 5, body := .storeFailed 7 } ∧ (es.take 1).map ReportEntry.size ≠ []) ∧
    [(⟨.done, 1500⟩ : CodeValue)][0]? = some ⟨.done, 1500⟩ := by decide +kernel

theorem witness_Emissions :
    (let s := fun e => output [] (some { bytes := [], emission := e }) (withSlot 3 .live .sweeping State.reset)
     (s (.sweep oneEntry true)).streaming = true ∧
     (s (.sweep oneEntry true)).out.sending = some { bytes := [], emission := .sweep oneEntry true } ∧
     (s (.fresh oneEntry [])).out.sending = some { bytes := [], emission := .fresh oneEntry [] } ∧
     (s (.report [9])).out.sending = some { bytes := [], emission := .report [9] } ∧
     ((s .quiet).record 3).isSome = true ∧ (s .quiet).record 4 = none) := by decide +kernel


theorem witness_NoticesAndPairs :
    (withSlot 3 .scheduled .steady State.reset).granting 3 = false ∧
    (∀ ro, ro ∈ [RolloverState.steady, .pending, .sweeping, .switching] →
      (withSlot 3 .live ro State.reset).granting 3 = true ∧
      (((withSlot 3 .live ro State.reset).record 3).map (·.rollover)) = some ro) ∧
    (let s := { withSlot 3 .live .steady State.reset with gcr := { Gcr.reset with buffer := oneEntry } }
     s.carouselHolds 3 0 = true ∧ s.carouselHolds 3 1 = false) ∧
    (let p : FreshPair := { cohort := 1, slot := 3, left := 1 }
     [p] = [] ++ p :: [] ∧ (∀ q ∈ [p], q.cohort = 0 → q.slot ≠ 3) ∧ p.left ≤ 1 ∧ 1 < { p with left := 2 }.left ∧
       1024 ≤ (List.replicate 1024 p).length) := by decide +kernel

/-- The sweep at a cohort, with a build buffer, over this many active cohorts; the store is READY. -/
def sweeping (c : Nat) (l : List GrantEntry) (active : Nat) : State :=
  { inStore .ready State.reset with
    gcr := { Gcr.reset with pointer := c, buffer := l }, settings := { Settings.default with activeCohorts := active } }

/-- Five entries in the build buffer. -/
def fiveEntries : List GrantEntry := List.replicate 5 { cohort := 0, slot := 3, matchId := 7, epoch := 0, mask := 1, wrapped := 0 }

/-- Slot 3 LIVE and house seat 32 c: a sweep build of cohort c gives one entry. -/
def granting (c : Nat) (s : State) : State :=
  let t := withSlot 3 .live .steady s
  { t with sst := { t.sst with house := [32 * c] } }

theorem witness_SweepStepBuilds :
    (∃ row u, rowForBuild 0 (slotList.any (granting 0 (sweeping 0 [] 2)).granting) (granting 0 (sweeping 0 [] 2)) = (row, u)) ∧
    (sweeping 0 [] 2).mayStep = true ∧ (sweeping 0 [] 2).gcr.pointer + 1 < 2 ∧
    (sweepBuild 0 (sweeping 0 [] 2)).1 = [] ∧
    (granting 0 (sweeping 0 fiveEntries 2)).mayStep = true ∧
    (sweepBuild 0 (granting 0 (sweeping 0 fiveEntries 2))).1.length = 1 ∧
    (sweepBuild 1 (granting 1 (sweeping 1 fiveEntries 2))).1.length = 1 ∧
    (sweepBuild 1 (sweeping 1 [] 2)).1 = [] ∧ (sweeping 2 [] 2).mayStep = true ∧
    (sweeping 2 fiveEntries 2).mayStep = true ∧ (sweeping 2 fiveEntries 2).gcr.buffer ≠ [] :=
  ⟨⟨_, _, rfl⟩, by decide +kernel⟩

theorem witness_GrantDecision :
    (withSlot 3 .scheduled .steady State.reset).granting 3 = false ∧
    (let s := granting 0 (inStore .ready State.reset)
     s.granting 3 = true ∧ s.live 3 = some record59 ∧ s.record 3 = some (freshRecord 0) ∧ storeOpen s ∧
       rowReadable 0 s ∧ baseMask (some zeroRow) record59 3 ||| houseMask s 0 ≠ 0 ∧ (freshRecord 0).rollover.rolling = false) ∧
    isPoisoned (poisoned [{ kind := .row, index := 0 }] State.reset) .row 0 = true ∧
    (inStore .failed State.reset).sst.store = .failed ∧
    (let s := withSlot 3 .live .sweeping State.reset
     s.granting 3 = true ∧ ∃ r, s.record 3 = some r ∧ r.rollover.rolling = true ∧ r.pendingKey = some { serial := 3 }) := by
  refine ⟨by decide +kernel, by decide +kernel, by decide +kernel, by decide +kernel, by decide +kernel, _, rfl, ?_, ?_⟩ <;>
    decide +kernel

/-- Slot 3 in a state at stream time t. -/
def slotAt (st : SlotState) (t : StreamTime) : State := atTime t (withSlot 3 st .steady State.reset)

theorem witness_StreamTimeTransitions :
    (∀ st, st ∈ [SlotState.scheduled, .onSale, .preview, .live, .extended, .ended] →
      (slotAt st 90000).running = true ∧ (slotAt st 90000).now = some 90000 ∧
      (slotAt st 90000).live 3 = some record59 ∧ ((slotAt st 90000).slot 3).state = st) ∧
    reached record59.saleOpen 89999 = false ∧ reached record59.saleOpen 90000 = true ∧
    reached record59.showStart 90000 = false ∧ reached record59.showStart 270000 = true ∧
    0 < record59.previewLen ∧ reached (record59.showStart + seconds record59.previewLen) 270000 = false ∧
    { record59 with previewLen := 0 }.previewLen = 0 ∧
    reached (record59.showStart + seconds record59.previewLen) 81270000 = true ∧
    reached (record59.showStart + seconds record59.scheduledLen) 81270000 = false ∧
    reached (record59.showStart + seconds record59.scheduledLen) 567270000 = true ∧
    reached (record59.showStart + seconds record59.scheduledLen + seconds record59.overrunMax) 567270000 = false ∧
    reached (record59.showStart + seconds record59.scheduledLen + seconds record59.overrunMax) 621270000 = true ∧
    reached (record59.showStart + seconds record59.scheduledLen + seconds record59.overrunMax +
      seconds record59.endHold) 621270000 = false ∧
    ((slotAt .ended 567270000).slot 3).endMark = some 567270000 ∧
    reached (567270000 + seconds record59.endHold) 572669999 = false ∧
    reached (567270000 + seconds record59.endHold) 572670000 = true ∧
    ((slotAt .ended 572670000).record 3).isSome = true := by decide +kernel

theorem witness_StreamTimeAdvanceSettles :
    State.reset.running = true ∧ State.reset.now = none ∧ (slotAt .onSale 270000).now.isSome = true := by decide +kernel

theorem witness_TimersExpire :
    (let s := fun st n => { State.reset with tbu := { Tbu.reset with state := st, tick := n, holdoverSince := some 0 } }
     (s .tracking 45000).running = true ∧ (s .tracking 45000).settings.holdoverLimit * 90 ≤
       ((s .tracking 45000).tbu.tick - 0).toNat ∧ (s .holdover 45000).tbu.holdoverSince = some 0 ∧
     ((s .tracking 44999).tbu.tick - 0).toNat < (s .tracking 44999).settings.holdoverLimit * 90) ∧
    (let s := withSlot 3 .live .sweeping State.reset
     (s.record 3).isSome = true ∧ 90000 ≤ (s.epochSlot 3).ageTicks ∧ (s.wordTimer 3).timer = some 9000 ∧
       s.settings.wordInterval * 90 ≤ 9000 ∧ 8999 < s.settings.wordInterval * 90 ∧
       s.settings.statusInterval * 90 ≤ { s.ina with statusTimer := 90000 }.statusTimer ∧
       { s.ina with statusTimer := 89999 }.statusTimer < s.settings.statusInterval * 90 ∧
       s.ina.paceTimer = some 0 ∧ 179 < s.settings.grantPace * 9 ∧ s.settings.grantPace * 9 ≤ 180) ∧
    ((withSlot 3 .live .sweeping State.reset).record 3).all (fun r => r.rollover.rolling) = true ∧
    ((withSlot 3 .live .steady State.reset).record 3).all (fun r => !r.rollover.rolling) = true ∧
    ({ record := none, ageTicks := 89999 } : EpochSlot).ageTicks < 90000 := by decide +kernel

/-- Slot 3 with a rollover state at a crypto period boundary. -/
def atBoundary (st : SlotState) (ro : RolloverState) : State :=
  let s := withSlot 3 st ro State.reset
  { s with tbu := { s.tbu with periodTimer := 900000 } }

theorem witness_BoundaryRollsEpochs :
    (∀ ro, ro ∈ [RolloverState.steady, .pending, .sweeping, .switching] →
      (atBoundary .live ro).running = true ∧ (atBoundary .live ro).tbu.periodLength ≤ (atBoundary .live ro).tbu.periodTimer ∧
      (atBoundary .live ro).granting 3 = true ∧ (((atBoundary .live ro).record 3).map (·.rollover)) = some ro) ∧
    (atBoundary .closed .steady).granting 3 = false ∧ (atBoundary .live .steady).passStart = true ∧
    ((atBoundary .live .switching).record 3).all (fun r => !r.redo) = true ∧
    ({ freshRecord 0 with redo := true }).redo = true ∧
    (atBoundary .live .sweeping).settings.rolloverDeadline ≤ ({ freshRecord 0 with sweepAge := 600 }).sweepAge ∧
    ({ freshRecord 0 with sweepAge := 599 }).sweepAge < (atBoundary .live .sweeping).settings.rolloverDeadline ∧
    (let t := { Settings.default with epochLifetime := 5 }
     t.epochLifetime ≠ 0 ∧ t.epochLifetime * 60 ≤ 30 * t.cryptoPeriod ∧
       29 * t.cryptoPeriod < t.epochLifetime * 60) ∧
    Settings.default.epochLifetime = 0 ∧ ({ freshRecord 0 with epochAge := 65535 }).epochAge = 65535 := by decide +kernel

theorem witness_BoundaryChangesWords :
    State.reset.running = true ∧ ({ Tbu.reset with periodTimer := 899999 }).periodTimer < Tbu.reset.periodLength ∧
    (atBoundary .live .steady).tbu.periodLength ≤ (atBoundary .live .steady).tbu.periodTimer ∧
    (atBoundary .live .steady).granting 3 = true ∧ (atBoundary .live .steady).record 3 = some (freshRecord 0) ∧
    (freshRecord 0).phase = .even ∧ ((atBoundary .live .steady).slot 3).state.words = true ∧
    ({ freshRecord 0 with phase := .odd }).phase = .odd ∧
    ((atBoundary .onSale .steady).slot 3).state.words = false := by decide +kernel

theorem witness_WalkStartAndClearStep :
    (let s := { inStore .ready State.reset with sst := { (inStore .ready State.reset).sst with
       walkQueue := [{ refund := true, slot := 3 }] } }
     s.running = true ∧ s.sst.walkQueue = { refund := true, slot := 3 } :: [] ∧ s.sst.walk = none ∧ s.sst.store = .ready) ∧
    State.reset.sst.walk.isSome = true ∧ (inStore .failed State.reset).sst.store ≠ .ready ∧
    (inStore .ready State.reset).sst.walkQueue = [] ∧ (inPhase .holding State.reset).running = false ∧
    (inStore .ready State.reset).sst.store ≠ .clearing ∧
    memoryWf State.reset = true ∧ State.reset.sst.store = .clearing ∧ walksAt .clear 0 State.reset ∧
    walksAt .clear 32767 (walking .clear 32767 State.reset) ∧ 32766 < 32767 ∧
    ((withSlot 3 .live .steady State.reset).record 3).isSome = true := by decide +kernel

/-- The VERIFY walk at cohort c. -/
def verifying (c : Nat) : State := walking .verify c (inStore .verifying State.reset)

theorem witness_VerifyWalkStepScans :
    (verifying 0).running = true ∧ (verifying 0).sst.store = .verifying ∧ walksAt .verify 0 (verifying 0) ∧
    cohortReadable 0 (verifying 0) ∧ walksAt .verify 32767 (verifying 32767) ∧ cohortReadable 32767 (verifying 32767) ∧
    (let acc := (verifying 32767).sst.accumulator ^^^ (rowAt (verifying 32767) 32767).digest ^^^
       recordDigests (verifying 32767) 32767
     acc ≠ (verifying 32767).sst.signature ∧
     acc = { (verifying 32767).sst with signature := 0x53631199 }.signature) := by decide +kernel

/-- A cohort with a listed row and listed records, some of them failing their digests, at the walk's start and at its end, and a
slot for each walk that the end of the verify queues or cuts. -/
theorem witness_VerifyWalkStepScans_listed :
    (∀ c, c ∈ [0, 32767] →
      let l : List PoisonEntry := [⟨.row, c⟩, ⟨.seat, c * 32⟩, ⟨.seat, c * 32 + 31⟩]
      let s := poisoned l (withSlot 3 .wiping .steady (withSlot 4 .abandoned .steady (verifying c)))
      let u := { s with sst := { s.sst with records := [(c * 32, { content := zeroRecord, digest := 0 })] } }
      u.running = true ∧ u.sst.store = .verifying ∧ walksAt .verify c u ∧ isPoisoned u .row c = true ∧
        recordDigest (recordAt u (seatOf c 0)).content ≠ (recordAt u (seatOf c 0)).digest ∧
        (∀ i, isPoisoned u .seat (seatOf c i) = true ∨ recordReadable (seatOf c i) u) ∧
        memoryWf u = true ∧ (u.slot 3).state = .wiping ∧ (u.slot 4).state = .abandoned ∧ u.live 4 = some record59 ∧
        walkQueued u 3 = false ∧ walkQueued u 4 = false) := by decide +kernel

/-- A walk at cohort c with its row and some of its seats listed; slot 3 in a state, seat 5 of the cohort holding it. -/
def walkedBy (k : WalkKind) (st : SlotState) (c : Nat) (rowListed : Bool) (seats : List Nat) : State :=
  poisoned ((if rowListed then [{ kind := .row, index := c }] else []) ++ seats.map fun n => { kind := .seat, index := n })
    (withRow c (zeroRow.buy 3 5) (walking k c (inStore .ready (withSlot 3 st .steady State.reset))))

theorem witness_WipeWalkStepWipes :
    (∀ c, c ∈ [0, 32767] → ∀ l, l ∈ [[], [32 * c, 32 * c + 5, 32 * c + 31]] → ∀ b, b ∈ [true, false] →
      let s := walkedBy (.wipe 3) .wiping c b l
      memoryWf s = true ∧ s.running = true ∧ s.sst.store = .ready ∧ walksAt (.wipe 3) c s ∧
        (isPoisoned s .row c = b) ∧ (isPoisoned s .row c = true ∨ rowReadable c s) ∧
        ∀ i, isPoisoned s .seat (seatOf c i) = true ∨ recordReadable (seatOf c i) s) := by decide +kernel

/-- A walk at cohort c, where the record of member 5 fails its digest, and the row too if so asked; the Poison List holds n other
entries. -/
def failingAt (k : WalkKind) (st : SlotState) (c n : Nat) (rowFails : Bool) : State :=
  let s := walkedBy k st c false []
  { s with sst := { s.sst with
      rows := [(c, { content := zeroRow.buy 3 5, digest := if rowFails then 0 else rowDigest (zeroRow.buy 3 5) })]
      records := [(32 * c + 5, { content := { zeroRecord with credit := 1 }, digest := 0 })]
      poison := (List.range n).map fun i => { kind := .row, index := 100 + i }
      store := if k = .verify then .verifying else .ready } }

/-- Items that fail: two with room for both, with room for one, and with none. -/
theorem witness_walk_steps_failing :
    (∀ k, k ∈ [(WalkKind.verify, SlotState.live), (.wipe 3, .wiping)] → ∀ c, c ∈ [0, 32767] → ∀ n, n ∈ [62, 63, 64] →
      let s := failingAt k.1 k.2 c n true
      let l := failing s (cohortItems c)
      memoryWf s = true ∧ s.running = true ∧ walksAt k.1 c s ∧ l = [⟨.row, c⟩, ⟨.seat, 32 * c + 5⟩] ∧
        s.poisonRoom = 64 - n ∧ (l.length ≤ s.poisonRoom ↔ n = 62) ∧
        l[s.poisonRoom]? = (if n = 62 then none else some (if n = 63 then ⟨.seat, 32 * c + 5⟩ else ⟨.row, c⟩))) ∧
    (∀ c, c ∈ [0, 32767] → ∀ n, n ∈ [63, 64] → ∀ b, b ∈ [true, false] →
      let s := failingAt (.refund 3) .abandoned c n b
      memoryWf s = true ∧ s.running = true ∧ s.sst.store = .ready ∧ walksAt (.refund 3) c s ∧
        (rowReadable c s ↔ b = false) ∧ (rowAt s c).content.holds 3 5 = true ∧
        failing s [⟨.row, c⟩] = (if b then [⟨.row, c⟩] else []) ∧ failing s [⟨.seat, seatOf c 5⟩] = [⟨.seat, seatOf c 5⟩]) ∧
    (failingAt .verify .live 0 0 true).sst.store = .verifying := by decide +kernel

theorem witness_RefundWalkStepRefunds :
    (∀ c, c ∈ [0, 32767] → ∀ l, l ∈ [[], [32 * c + 4, 32 * c + 5]] →
      let s := walkedBy (.refund 3) .abandoned c false l
      memoryWf s = true ∧ s.running = true ∧ s.sst.store = .ready ∧ walksAt (.refund 3) c s ∧ rowReadable c s ∧
        (rowAt s c).content.holds 3 5 = true ∧ (rowAt s c).content.holds 3 4 = false ∧
        (∀ i, (rowAt s c).content.holds 3 i = true →
          isPoisoned s .seat (seatOf c i) = true ∨ recordReadable (seatOf c i) s) ∧ s.live 3 = some record59 ∧
        (s.slot 3).state = .abandoned ∧ isPoisoned (walkedBy (.refund 3) .abandoned c true []) .row c = true) := by
  decide +kernel

/-- A command body, its check word left 0: length, kind, guard, item count, items. -/
def commandBody (len kind guard slot value count : Nat) (items : List (BitVec 8)) : List (BitVec 8) :=
  beBytes 2 len ++ beBytes 4 9 ++ beBytes 1 kind ++ beBytes 1 guard ++ beBytes 1 slot ++ beBytes 2 value ++ [0] ++
    beBytes 1 count ++ items ++ List.replicate 8 0

/-- The part with that body at the head of the Command Queue. -/
def queued (b : List (BitVec 8)) : State :=
  { State.reset with cmu := { Cmu.reset with queue := [{ number := 9, body := b }] } }

theorem witness_CommandStartJudges :
    (queued (commandBody 21 29 0 0 0 0 [])).cmu.queue = { number := 9, body := commandBody 21 29 0 0 0 0 [] } :: [] ∧
    State.reset.running = true ∧ State.reset.cmu.executing = none ∧ State.reset.rpu.places < 64 ∧
    (inPhase .held State.reset).running = false ∧ (executing .releaseFault State.reset).cmu.executing.isSome = true ∧
    64 ≤ { Rpu.reset with entries := List.replicate 63 { stamp := 0, body := .storeReady }, reserved := true }.places ∧
    numAt (commandBody 21 0 0 0 0 0 []) 6 1 = 0 ∧ itemForm 0 = none ∧ itemForm 32 = none ∧
    itemForm 29 = some ItemForm.none ∧ numAt (commandBody 21 29 0 0 0 1 []) 12 1 = 1 ∧
    numAt (commandBody 21 29 0 0 0 0 []) 0 2 = 21 ∧
    (guardFault 3 0 0).isSome = true ∧ (guardFault 1 16 0).isSome = true ∧ guardFault 1 15 1023 = none ∧
    guardTrue State.reset 1 15 1022 = false ∧ guardTrue State.reset 1 15 1 = true ∧
    unitsOf 29 0 ((commandBody 21 29 0 0 0 0 []).drop 13) = [.releaseFault] ∧
    numAt (commandBody 23 2 0 0 0 1 [0, 0]) 0 2 = 23 ∧ itemForm 2 = some (.one 2) ∧
    unitsOf 2 1 ((commandBody 23 2 0 0 0 1 [0, 0]).drop 13) = [] ∧
    guardFault 2 16 0 = some .guardSlot ∧ guardFault 2 15 65535 = none ∧
    (∀ p, p ∈ [(9, 5, 24), (10, 4, 24), (12, 3, 24), (25, 3, 16), (26, 5, 16), (18, 38, 4)] →
      let b := commandBody (21 + p.2.1 * p.2.2) p.1 0 0 0 p.2.2 (List.replicate (p.2.1 * p.2.2) 0)
      (queued b).cmu.queue.head?.map (·.body) = some b ∧ numAt b 0 2 = b.length ∧ p.2.1 * p.2.2 ≤ (b.drop 13).length ∧
        itemForm (numAt b 6 1) = some { lo := 1, hi := p.2.2, once := 0, each := p.2.1 }) ∧
    79 ≤ (((commandBody 101 1 0 0 0 1 (List.replicate 80 0)).drop 13).drop 1).length := by decide +kernel

theorem witness_UnitsAreCounted :
    (let x := { running (.suspend 1) with todo := [.suspend 1, .suspend 2], kind := 12 }
     x.todo.tail ≠ []) ∧
    (running (.suspend 1)).todo.tail = [] ∧ (running (.suspend 1)).quiet = false ∧
    (let x := { running (.suspend 1) with quiet := true, kind := 12 }
     x.quiet = true ∧ (∀ d ∈ x.codes ++ [(⟨.done, 0⟩ : CodeValue)], d.code = .done) ∧ readingKind x.kind = false ∧
       ∃ d ∈ x.codes ++ [(⟨.already, 0⟩ : CodeValue)], d.code ≠ .done) ∧
    readingKind 19 = true ∧ (WholeOutcome.refused .wrongState).readback = none ∧
    { WholeOutcome.taken with readback := some [1] }.readback = some [1] ∧ CommandResult.refused ≠ .taken := by
  refine ⟨by decide +kernel, by decide +kernel, by decide +kernel, ⟨by decide +kernel, by decide +kernel,
    by decide +kernel, ⟨.already, 0⟩, by decide +kernel, by decide +kernel⟩, by decide +kernel, by decide, by decide, by decide⟩

theorem witness_DefineMatchStages :
    (∀ n, n ∈ [3, 15, 16] → Takes (.defineMatch n goodImage) (running (.defineMatch n goodImage))
      (executing (.defineMatch n goodImage) State.reset)) ∧ 15 < 16 ∧ 15 = (15 : SlotId).val ∧
    imageBadField goodImage = none ∧ imageBadField { goodImage with lateCutoff := 6301 } = some .lateCutoff ∧
    imageBadField { goodImage with previewLen := 1800 } = none ∧
    imageBadField { goodImage with previewLen := 1801 } = some .previewLen ∧
    imageBadField { goodImage with pids := Vector.replicate 4 0x2000 } = some (.servicePid 0) ∧
    imageBadField { goodImage with matchId := 0, failPolicy := 2 } = some .matchId ∧
    imageBadField { goodImage with earlyClose := 8589934592, saleOpen := 8589934592 } = some .saleOpen ∧
    imageBadField { goodImage with saleOpen := 8589934591 } = none ∧ (0 : Fin 4).val < goodImage.pidCount := by decide +kernel

/-- COMMIT SCHEDULE of slot 3 in execution, with a staged record, at stream time t. -/
def committing (st : SlotState) (r : MatchRecord) (t : StreamTime) : State :=
  let s := executing (.commitSchedule 3) (slotAt st t)
  s.setSlot 3 { s.slot 3 with staged := some r }

theorem witness_CommitScheduleItem :
    Takes (.commitSchedule 3) (running (.commitSchedule 3)) (executing (.commitSchedule 3) State.reset) ∧
    (State.reset.slot 3).staged = none ∧
    (let s := executing (.commitSchedule 3) State.reset
     ((s.setSlot 3 { s.slot 3 with staged := some record59 }).slot 3).staged = some record59 ∧ s.now = none) ∧
    (∀ st, st ∈ [SlotState.empty, .scheduled, .onSale, .preview] →
      Takes (.commitSchedule 3) (running (.commitSchedule 3)) (committing st record59 0) ∧
      ((committing st record59 0).slot 3).state = st ∧ ((committing st record59 0).slot 3).staged = some record59 ∧
      (committing st record59 0).now = some 0 ∧ memoryWf (committing st record59 0) = true) ∧
    outOfOrder record59 = false ∧ tooLong record59 = false ∧ outOfHorizon record59 0 = false ∧
    reached record59.latestClose 626670000 = true ∧ outOfHorizon record59 626670000 = true ∧
    signedDistance record59.earlyClose { record59 with showStart := 179999 }.showStart < 0 ∧
    (∀ p ∈ record59.claims, (committing .empty record59 0).siu.classOf p = .pass) ∧ record59.claims.Nodup ∧
    (¬{ record59 with wordPid := 0x20 }.claims.Nodup) ∧
    (committing .onSale record59 0).live 3 = some record59 ∧ record59.matchId ≠ { record59 with matchId := 8 }.matchId ∧
    record59.standardPrice < { record59 with lateFloor := 2001 }.lateFloor ∧
    ((committing .onSale record59 0).record 3).isSome = true := by decide +kernel

theorem witness_ReadingCommandsCapture :
    (∀ i, i ∈ [Instr.readMatch 3, .readMatch 16, .readPoisonList, .readHouseList, .readSettings] →
      Takes i (running i) (executing i State.reset)) ∧ 15 < 16 ∧
    [16777215].length < 256 ∧ [16777215][0]? = some 16777215 ∧ 16777215 < 16777216 ∧
    [({ kind := .seat, index := 1048575 } : PoisonEntry)][0]? = some { kind := .seat, index := 1048575 } ∧
    State.reset.settings.values[0]? = some 10 ∧ State.reset.mtb = State.reset.mtb ∧
    State.reset.record 3 = none ∧ State.reset.rpu.fault.index < 16777216 ∧ (State.reset.slot 3).state = .empty ∧
    (∀ st, st ∈ [SlotState.live, .ended] → let s := withSlot 3 st .steady State.reset
      (s.slot 3).state ≠ .empty ∧ s.live 3 = some record59 ∧ (s.record 3).isSome = true ∧
        record59.servicePids.length ≤ 4 ∧ ((s.slot 3).endMark.isSome = decide (st = .ended))) ∧
    (let s := State.reset.setSlot 3 { State.reset.slot 3 with state := .live }
     (s.slot 3).state ≠ .empty ∧ s.live 3 = none ∧ s.record 3 = none) := by decide +kernel

theorem witness_SlotMovingCommands :
    (∀ i, i ∈ [Instr.finalWhistle 3, .abandonMatch 3, .clearSlot 3, .finalWhistle 16, .abandonMatch 16, .clearSlot 16] →
      ∀ st, st ∈ [SlotState.scheduled, .onSale, .preview, .live, .extended, .ended, .closed] →
      Takes i (running i) (executing i (slotAt st 270000)) ∧ (executing i (slotAt st 270000)).live 3 = some record59 ∧
      ((executing i (slotAt st 270000)).slot 3).state = st) ∧
    SlotState.beforeEnd .ended = false ∧ ((slotAt .live 270000).record 3).isSome = true ∧
    ((withSlot 3 .live .sweeping State.reset).record 3).all (fun r => decide (r.rollover ≠ .steady)) = true := by
  decide +kernel

theorem witness_SetBlackoutAndForceRollover :
    (∀ i, i ∈ [Instr.setBlackout 3 0 [18], .setBlackout 3 1 [17], .setBlackout 3 2 [17], .setBlackout 16 0 [17],
      .forceRollover 3, .forceRollover 16] → ∀ st, st ∈ [SlotState.scheduled, .live, .closed] →
      Takes i (running i) (executing i (slotAt st 270000)) ∧ (executing i (slotAt st 270000)).live 3 = some record59 ∧
      ((executing i (slotAt st 270000)).record 3).isSome = true) ∧
    SlotState.beforeEnd .closed = false ∧ SlotState.beforeEnd .live = true ∧
    (slotAt .scheduled 270000).granting 3 = false ∧ (slotAt .live 270000).granting 3 = true := by decide +kernel

/-! ### Seat items -/

/-- A seat item in execution, the store in a state, slot 3 in a state at stream time t. -/
def seatItem (i : Instr) (store : StoreState) (st : SlotState) (t : StreamTime) : State :=
  executing i (inStore store (slotAt st t))

theorem witness_SeatItemChecks :
    (∀ i, i ∈ [Instr.purchase 5 3 2, .purchase 5 16 0, .purchase 5 15 1, .refund 5 16, .withdraw 5 15, .suspend 5, .resume 5,
      .setRegion 5 17, .topUpCredit 5 1, .clearSeatMarks 5, .suspend 1048576] →
      ∀ store, store ∈ [StoreState.clearing, .verifying, .ready, .failed] →
        Takes i (running i) (seatItem i store .live 270000)) ∧
    5 < (slotAt .live 270000).settings.activeCohorts * 32 ∧ (slotAt .live 270000).settings.activeCohorts * 32 ≤ 1048576 ∧
    (let s := poisoned [{ kind := .row, index := 0 }] (seatItem (.refund 5 3) .ready .live 270000)
     seatOpen 5 s ∧ isPoisoned s .row (5 / 32) = true ∧ recordReadable 5 s ∧
       isPoisoned (poisoned [{ kind := .row, index := 0 }, { kind := .seat, index := 5 }] s) .seat 5 = true) ∧
    rowReadable (5 / 32) (seatItem (.refund 5 3) .failed .live 270000) ∧
    recordReadable 5 (seatItem (.refund 5 3) .failed .live 270000) ∧
    (let l := (List.range 64).map fun i => ({ kind := .row, index := i } : PoisonEntry)
     let s := poisoned l (seatItem (.suspend 5) .ready .live 270000)
     (readRow 0 s).1 = none ∧ (readRow 0 s).2.sst.store ≠ .failed ∧ s.sst.store ≠ .clearing) ∧
    (let s := poisoned ((List.range 64).map fun i => { kind := .row, index := i + 1 }) (seatItem (.suspend 5) .ready .live 270000)
     let u := { s with sst := { s.sst with rows := [(0, { content := zeroRow, digest := 0 })] } }
     (readRow 0 u).1 = none ∧ (readRow 0 u).2.sst.store = .failed) := by decide +kernel

/-- Seat 5 of region 17 suspended or not, holding slot 3 or not, with this credit. -/
def seatFive (held off : Bool) (g : BitVec 8) (credit : BitVec 16) (s : State) : State :=
  let r := ((if held then zeroRow.buy 3 5 else zeroRow).setSuspend 5 off).setRegion 5 g
  withRecord 5 { zeroRecord with credit := credit } (withRow 0 r s)

theorem witness_PurchaseTakes :
    (∀ st, st ∈ [SlotState.empty, .scheduled, .onSale, .preview, .live, .extended] →
      let s := seatFive false false 0 1500 (seatItem (.purchase 5 3 0) .ready st 90000)
      Takes (.purchase 5 3 0) (running (.purchase 5 3 0)) s ∧ seatOpen 5 s ∧ memoryWf s = true ∧ rowReadable (5 / 32) s ∧
        recordReadable 5 s ∧ (s.slot 3).state = st) ∧
    (let s := seatFive false false 0 1500 (seatItem (.purchase 5 3 0) .ready .onSale 90000)
     s.live 3 = some record59 ∧ (chargeOf false 3 record59 s).toOption = some 1500 ∧ (1500 : BitVec 16).toNat < 1501 ∧
       (rowAt s (5 / 32)).content.holds 3 (memberOf 5) = false ∧
       (rowAt s (5 / 32)).content.suspended (memberOf 5) = false ∧
       record59.blackout.getLsbD ((rowAt s (5 / 32)).content.region.get (memberOf 5)).toNat = false ∧
       (recordAt s 5).content.credit.toNat = 1500) ∧
    (let s := seatFive true true 17 0 State.reset
     (rowAt s (5 / 32)).content.holds 3 (memberOf 5) = true ∧ (rowAt s (5 / 32)).content.suspended (memberOf 5) = true ∧
       record59.blackout.getLsbD ((rowAt s (5 / 32)).content.region.get (memberOf 5)).toNat = true) ∧
    (let s := seatItem (.purchase 5 3 0) .ready .live 567270001
     (chargeOf false 3 { record59 with lateCutoff := 6299 } s).toOption = none) := by decide +kernel

theorem witness_PurchasePrice :
    ((slotAt .preview 270000).slot 3).state = .preview ∧ ((slotAt .onSale 179999).slot 3).state = .onSale ∧
    (withSlot 3 .live .steady State.reset).now = none ∧ (slotAt .onSale 179999).now = some 179999 ∧
    reached record59.earlyClose 179999 = false ∧ reached record59.earlyClose 180000 = true ∧
    ((slotAt .live 270000).slot 3).state = .live ∧ 0 < record59.scheduledLen * 90000 ∧
    { record59 with lateCutoff := 0 }.lateCutoff * 90000 < 1 ∧ 0 ≤ { record59 with lateCutoff := 0 }.lateCutoff * 90000 ∧
    0 < record59.scheduledLen ∧ record59.lateFloor ≤ record59.standardPrice := by decide +kernel

theorem witness_RefundAndWithdraw :
    (∀ i, i ∈ [Instr.refund 5 3, .withdraw 5 3] → ∀ held, held ∈ [true, false] →
      ∀ st, st ∈ [SlotState.empty, .scheduled, .onSale, .closed, .wiping] →
      let s := seatFive held false 0 65535 (seatItem i .ready st 90000)
      seatOpen 5 s ∧ memoryWf s = true ∧ rowReadable (5 / 32) s ∧ recordReadable 5 s ∧ Takes i (running i) s ∧
        (s.slot 3).state = st ∧ (rowAt s (5 / 32)).content.holds 3 (memberOf 5) = held) := by decide +kernel

theorem witness_SuspendResumeSetRegion :
    (∀ i, i ∈ [Instr.suspend 5, .resume 5, .setRegion 5 17] → ∀ off, off ∈ [true, false] → ∀ g, g ∈ [0, (17 : BitVec 8)] →
      let s := seatFive true off g 0 (seatItem i .verifying .live 270000)
      seatOpen 5 s ∧ memoryWf s = true ∧ rowReadable (5 / 32) s ∧ Takes i (running i) s ∧ s.granting 3 = true ∧
        (rowAt s (5 / 32)).content.suspended (memberOf 5) = off ∧
        (rowAt s (5 / 32)).content.region.get (memberOf 5) = g ∧
        (rowAt s (5 / 32)).content.holds 3 (memberOf 5) = true) := by decide +kernel

theorem witness_CreditAdditionLaw :
    addCredit 20000 19500 500 = (20000, false) ∧ addCredit 20000 19500 501 = (20000, true) ∧
    addCredit 20000 20001 0 = (20001, false) ∧ addCredit 20000 20000 1 = (20000, true) ∧
    65535 ≤ 65535 ∧ SlotState.live.refundable = true ∧ (zeroRow.buy 3 5).holds 3 (memberOf 5) = true ∧
    zeroRecord.credit.toNat < 1 := by decide +kernel

theorem witness_CreditItems :
    (∀ i, i ∈ [Instr.topUpCredit 5 0, .topUpCredit 5 65535, .clearSeatMarks 5] → ∀ sat, sat ∈ [0, (1 : BitVec 8)] →
      let s := withRecord 5 { zeroRecord with sat := sat } (seatItem i .ready .live 270000)
      seatOpen 5 s ∧ memoryWf s = true ∧ recordReadable 5 s ∧ Takes i (running i) s ∧
        (recordAt s 5).content.sat = sat) := by decide +kernel

/-! ### Store commands, settings, keys -/

theorem witness_LoadsWriteAndCure :
    (∀ i, i ∈ [Instr.loadCohortRow 32767 zeroRow, .loadCohortRow 32768 zeroRow, .loadSeatRecords 1048575 zeroRecord,
      .loadSeatRecords 1048576 zeroRecord] → ∀ store, store ∈ [StoreState.clearing, .verifying, .ready, .failed] →
      let s := seatItem i store .live 270000
      Takes i (running i) s ∧ memoryWf s = true ∧ s.sst.store = store ∧ rowReadable 32767 s ∧ recordReadable 1048575 s ∧
        s.granting 3 = true ∧ s.granting 4 = false ∧ (s.record 3).isSome = true ∧ s.live 3 = some record59) ∧
    (let s := poisoned [{ kind := .row, index := 32767 }, { kind := .seat, index := 1048575 }] (inStore .ready State.reset)
     ¬rowReadable 32767 s ∧ ¬recordReadable 1048575 s ∧ storeOpen s) := by decide +kernel

theorem witness_QuerySeatShowsSeat :
    (∀ n, n ∈ [1048575, 1048576] → ∀ store, store ∈ [StoreState.clearing, .verifying, .ready, .failed] →
      let s := seatItem (.querySeat n) store .live 270000
      Takes (.querySeat n) (running (.querySeat n)) s ∧ s.sst.store = store ∧ recordReadable 1048575 s ∧
        rowReadable (1048575 / 32) s) ∧
    (let s := poisoned [{ kind := .row, index := 32767 }] (seatItem (.querySeat 1048575) .ready .live 270000)
     isPoisoned s .row (1048575 / 32) = true ∧ recordReadable 1048575 s) := by decide +kernel

/-- The reads of QUERY SEAT: both listed, the record alone listed, and a row or record that fails its digest, in each store state
in which the command reads. -/
theorem witness_QuerySeatShowsSeat_reads :
    (∀ store, store ∈ [StoreState.verifying, .ready, .failed] →
      let s := seatItem (.querySeat 5) store .live 270000
      let both := poisoned [⟨.row, 0⟩, ⟨.seat, 5⟩] s
      let one := poisoned [⟨.seat, 5⟩] s
      let bad := { s with sst := { s.sst with
        rows := [(0, { content := zeroRow, digest := 0 })], records := [(5, { content := zeroRecord, digest := 0 })] } }
      s.sst.store ≠ .clearing ∧ Takes (.querySeat 5) (running (.querySeat 5)) both ∧
        isPoisoned both .row (5 / 32) = true ∧ isPoisoned (readRow (5 / 32) both).2 .seat 5 = true ∧
        Takes (.querySeat 5) (running (.querySeat 5)) one ∧ rowReadable (5 / 32) one ∧
        isPoisoned (readRow (5 / 32) one).2 .seat 5 = true ∧
        Takes (.querySeat 5) (running (.querySeat 5)) bad ∧ ¬rowReadable (5 / 32) bad ∧
        ¬recordReadable 5 (readRow (5 / 32) bad).2) ∧
    (let s := poisoned ((List.range 64).map fun i => ⟨.seat, i + 6⟩) (seatItem (.querySeat 5) .verifying .live 270000)
     let u := { s with sst := { s.sst with rows := [(0, { content := zeroRow, digest := 0 })] } }
     u.sst.store ≠ .clearing ∧ (readRow (5 / 32) u).2.sst.store = .clearing) := by decide +kernel

theorem witness_ClearStoreCuts :
    (∀ st, st ∈ [SlotState.wiping, .abandoned, .live] →
      let s := seatItem .clearStore .failed st 270000
      Takes .clearStore (running .clearStore) s ∧ (s.slot 3).state = st ∧ (s.record 3).isSome = true) := by decide +kernel

theorem witness_HouseSeats :
    (∀ i, i ∈ [Instr.addHouseSeat 1048575, .addHouseSeat 1048576, .removeHouseSeat 1048575, .removeHouseSeat 1048576] →
      ∀ l, l ∈ [[], [1048575], List.range 64] →
      let s := executing i (slotAt .live 270000)
      let u := { s with sst := { s.sst with house := l } }
      Takes i (running i) u ∧ u.sst.house = l ∧ (u.record 3).isSome = true) ∧
    (1048575 ∈ [1048575]) ∧ 1048575 ∉ List.range 64 ∧ 64 ≤ (List.range 64).length := by decide +kernel

/-- The defaults of section 10.6 lie in its ranges. -/
theorem default_settings_lawful : Settings.default.lawful := by constructor <;> decide

theorem witness_SetSettingsWhole :
    (∀ l, l ∈ [[(0, 1)], [(1, 5), (20, 1)], [(13, 2)], [(16, 0x30), (17, 0x30)], [(1, 0), (1, 61), (16, 0x30)]] →
      Takes (.setSettings l) (running (.setSettings l)) (executing (.setSettings l) State.reset)) ∧
    (¬(settingsAfter State.reset.settings [(16, 0x30), (17, 0x30)]).marks.Nodup) ∧
    (settingsAfter State.reset.settings [(1, 0), (1, 61), (16, 0x30)]).marks.Nodup ∧
    (∀ p ∈ (settingsAfter State.reset.settings [(1, 0), (1, 61), (16, 0x30)]).marks,
      p ∈ State.reset.settings.marks ∨ State.reset.siu.classOf p = .pass ∨ State.reset.siu.classOf p = .drop) ∧
    memoryWf State.reset = true ∧ (settingsAfter State.reset.settings [(1, 0), (1, 61), (16, 0x30)]).controlPid = 0x30 ∧
    (settingsAfter State.reset.settings [(1, 0), (1, 61), (16, 0x30)]).cryptoPeriod = 60 ∧
    ([(1, 0), (1, 61), (16, 0x30)] : List (Nat × Nat)) = [(1, 0)] ++ (1, 61) :: [(16, 0x30)] ∧
    (∀ p ∈ ([(16, 0x30)] : List (Nat × Nat)), p.1 ≠ 1) ∧
    (∀ p ∈ ([(1, 0), (1, 61), (16, 0x30)] : List (Nat × Nat)), p.1 ≠ 2) := by decide +kernel

theorem witness_SettingsActAtOnce :
    (∀ l, l ∈ [[(11, 100), (12, 500), (2, 20), (3, 1), (14, 2000)], [(3, 0)], [(11, 2000), (12, 10000), (2, 500), (3, 10000)]] →
      let s := executing (.setSettings l) (withSlot 3 .live .steady State.reset)
      Takes (.setSettings l) (running (.setSettings l)) s ∧ (∀ p ∈ l, 1 ≤ p.1 ∧ p.1 ≤ 19 ∧ (p.1 = 13 → p.2 ≤ 1)) ∧
        (settingsAfter s.settings l).marks.Nodup ∧
        (∀ p ∈ (settingsAfter s.settings l).marks, p ∈ s.settings.marks ∨ s.siu.classOf p = .pass ∨ s.siu.classOf p = .drop) ∧
        (s.wordTimer 3).timer = some 9000 ∧ (s.wordTimer 4).timer = none ∧ s.ina.paceTimer = some 0) ∧
    (let new := settingsAfter Settings.default [(11, 100), (12, 500), (2, 20), (3, 1), (14, 2000)]
     new.fillRate ≠ Settings.default.fillRate ∧ State.reset.siu.lock ≠ .locked ∧
       new.holdoverLimit ≠ Settings.default.holdoverLimit ∧ new.holdoverLimit * 90 ≤ (9000 - 0 : BitVec 33).toNat ∧
       (8999 - 0 : BitVec 33).toNat < new.holdoverLimit * 90 ∧ new.statusInterval * 90 ≤ 45000 ∧
       new.statusInterval ≠ Settings.default.statusInterval ∧ 44999 < new.statusInterval * 90 ∧
       new.grantPace ≠ Settings.default.grantPace ∧ new.grantPace ≠ 0 ∧ new.grantPace * 9 ≤ 9 ∧ 8 < new.grantPace * 9 ∧
       new.wordInterval ≠ Settings.default.wordInterval ∧ new.wordInterval * 90 ≤ 9000) ∧
    (settingsAfter Settings.default [(3, 0)]).grantPace = 0 := by decide +kernel

theorem witness_IdentifierKeyAndMarkCommands :
    (∀ p, p ∈ [(8191, 1), (8192, 0), (0x20, 2), (0x20, 0), (0x20, 1), (0x1FFF, 0)] →
      Takes (.setPidClass p.1 p.2) (running (.setPidClass p.1 p.2)) (executing (.setPidClass p.1 p.2) State.reset)) ∧
    State.reset.siu.classOf 0x20 = .pass ∧ State.reset.siu.classOf 0x1FFF ≠ .pass ∧
    State.reset.siu.classOf 0x1FFF ≠ .drop ∧ State.reset.siu.classOf 8191 = .null ∧ memoryWf State.reset = true ∧
    (classed 0x31 .drop State.reset).siu.classOf 0x31 = .drop ∧
    (∀ i, i ∈ [Instr.setRootKey 1, .releaseFault, .clearStatusMarks] →
      Takes i (running i) (executing i State.reset)) := by decide +kernel

/-! ### Hold, resets, laws -/

/-- Hold has found a command in execution with this row as the unit in hand, another unit waiting behind it. -/
def inHand (i : Instr) (s : State) : State :=
  inPhase .finishing { s with
    cmu := { s.cmu with executing := some { running i with todo := [i, .suspend 4], unitCount := 2 } }
    rpu := { s.rpu with reserved := true } }

theorem witness_HoldAndSupplies :
    Takes .restart (running .restart) (executing .restart State.reset) ∧ State.reset.power.phase = .running ∧
    State.reset.cmu.executing = none ∧ (executing .restart State.reset).cmu.executing ≠ none ∧
    (inPhase .holding State.reset).power.phase = .holding ∧ (inPhase .finishing State.reset).power.phase = .finishing ∧
    (inPhase .held State.reset).power.phase ≠ .running ∧ (inPhase .held State.reset).power.phase ≠ .finishing ∧
    (inPhase .held State.reset).power.phase ≠ .holding ∧ (inPhase .held State.reset).power.restartHold = false ∧
    (∀ i, i ∈ [Instr.topUpCredit 5 1, .finalWhistle 3, .restart] → unitRow i = true ∧
      InHand i { running i with todo := [i, .suspend 4], unitCount := 2 } (inHand i State.reset) ∧
      InHand i (running i) (inPhase .finishing (executing i State.reset))) ∧
    Instr.topUpCredit 5 1 ≠ .restart ∧
    Takes (.topUpCredit 5 1) (running (.topUpCredit 5 1)) (executing (.topUpCredit 5 1) State.reset) ∧
    InHand (.setSettings [(2, 20)]) (running (.setSettings [(2, 20)]))
      (inPhase .finishing (executing (.setSettings [(2, 20)]) State.reset)) ∧
    (inPhase .unpowered State.reset).power.phase = .unpowered ∧
    { State.reset.sst with selfRefresh := true }.selfRefresh = true ∧ State.reset.power.vbakLost = false := by
  decide +kernel

theorem witness_HoldFreezesRetained :
    ∀ ph, ph ∈ [PartPhase.finishing, .holding, .held, .unpowered] →
      (inPhase ph State.reset).power.phase ≠ .running ∧ unitRow .holdEntry = false ∧
      step { inPhase ph State.reset with pending := [.holdEntry] } = .next (inPhase ph State.reset) := by
  intro ph h
  simp only [List.mem_cons, List.not_mem_nil, or_false] at h
  rcases h with rfl | rfl | rfl | rfl <;> exact ⟨by decide +kernel, rfl, rfl⟩

theorem witness_WarmStartKeepsRetained :
    State.reset.power.checkHolds = true ∧ State.reset.power.vbakLost = false ∧
    (inPhase .held State.reset).streaming = false ∧
    (let s := { State.reset with power := { Power.reset with phase := .held, restartHold := true } }
     s.power.phase = .held ∧ s.power.restartHold = true ∧ s.power.pwarnAtStop = false ∧ s.power.checkHolds = true) ∧
    ((withSlot 3 .live .sweeping State.reset).record 3).isSome = true := by decide +kernel

theorem witness_ColdStartClears :
    (let s := { State.reset with power := { Power.reset with vbakLost := true } }
     s.power.vbakLost = true ∧ s.power.checkHolds = true) ∧
    { Power.reset with checkHolds := false }.checkHolds = false ∧ State.reset.streaming = true ∧
    (let s := { State.reset with power := { Power.reset with phase := .held, restartHold := true, vbakLost := true } }
     s.power.phase = .held ∧ s.power.restartHold = true ∧ s.power.pwarnAtStop = false ∧ s.power.vbakLost = true) ∧
    (inPhase .held State.reset).taking = false := by decide +kernel

/-- The state after reset takes a step under every law of Safety.lean. -/
theorem witness_MemoryStaysLawful :
    State.reset.memoryLawful ∧ ∃ t, step State.reset = .next t := by
  refine ⟨⟨default_settings_lawful, ?_, by decide +kernel⟩, _, rfl⟩
  intro w h
  cases h
  decide

theorem witness_QueuesStayLawful :
    State.reset.queuesLawful ∧ ∃ t, step State.reset = .next t :=
  ⟨by constructor <;> decide +kernel, _, rfl⟩

theorem witness_SlotsStayLawful :
    State.reset.slotsLawful ∧ ∃ t, step State.reset = .next t := by
  have hr : ∀ m, State.reset.record m = none := by decide +kernel
  refine ⟨⟨fun m => ⟨?_, ?_, ?_, ?_, ?_, ?_, ?_, ?_⟩, by decide +kernel, by decide +kernel⟩, _, rfl⟩
  · revert m; decide +kernel
  · revert m; decide +kernel
  · revert m; decide +kernel
  · revert m; decide +kernel
  · revert m; decide +kernel
  · revert m; decide +kernel
  · intro r h; rw [hr] at h; cases h
  · intro r h; rw [hr] at h; cases h

theorem witness_PidsStayLawful :
    memoryWf State.reset = true ∧ State.reset.slotsLawful ∧ State.reset.pidsLawful ∧ ∃ t, step State.reset = .next t := by
  have hl : ∀ m, State.reset.live m = none := by decide +kernel
  refine ⟨by decide +kernel, witness_SlotsStayLawful.1,
    ⟨?_, ?_, by decide +kernel, by decide +kernel, by decide +kernel, by decide +kernel⟩, _, rfl⟩
  · intro m rec h; rw [hl] at h; cases h
  · intro m rec h; rw [hl] at h; cases h

/-- Slot 3 LIVE and lawful, a step that is no boundary. -/
theorem witness_EpochChangesOnlyAtBoundary :
    (let s := { withSlot 3 .live .steady State.reset with pending := [.holdEntry] }
     s.slotsLawful ∧ s.pending.head? ≠ some .cryptoPeriodBoundary ∧ s.record 3 = some (freshRecord 0) ∧
       ∃ t, step s = .next t ∧ t.record 3 = some (freshRecord 0)) := by
  have hr : ∀ m r, (withSlot 3 .live .steady State.reset).record m = some r → m = 3 ∧ r = freshRecord 0 := by
    intro m r h
    by_cases hm : m = 3
    · subst hm
      exact ⟨rfl, (Option.some.inj (h.symm.trans (by decide +kernel : _ = some (freshRecord 0))))⟩
    · have hn : ∀ m, m ≠ 3 → (withSlot 3 .live .steady State.reset).record m = none := by decide +kernel
      rw [hn m hm] at h
      cases h
  refine ⟨⟨fun m => ⟨?_, ?_, ?_, ?_, ?_, ?_, ?_, ?_⟩, by decide +kernel, by decide +kernel⟩, by decide +kernel,
    by decide +kernel, _, rfl, by decide +kernel⟩
  · revert m; decide +kernel
  · revert m; decide +kernel
  · revert m; decide +kernel
  · revert m; decide +kernel
  · revert m; decide +kernel
  · revert m; decide +kernel
  · intro r h
    obtain ⟨rfl, rfl⟩ := hr m r h
    constructor <;> decide
  · intro r h hg
    obtain ⟨rfl, rfl⟩ := hr m r h
    rfl

theorem witness_LastAcceptedNeverFalls :
    (∃ t, step State.reset = .next t) ∧
    (let s := { State.reset with
       cmu := { Cmu.reset with lastAccepted := 9 }, pending := [.resetn .nothing], power := { Power.reset with vbakLost := true } }
     ∃ t, step s = .next t ∧ t.cmu.lastAccepted = 0) := ⟨⟨_, rfl⟩, _, rfl, by decide +kernel⟩

theorem witness_FailedReadPoisons :
    (∀ store, store ∈ [StoreState.clearing, .verifying, .ready, .failed] → ∀ n, n ∈ [63, 64] →
      let l := (List.range n).map fun i => ({ kind := .seat, index := i + 1 } : PoisonEntry)
      let s := poisoned l (inStore store State.reset)
      let u := { s with sst := { s.sst with
        rows := [(0, { content := zeroRow, digest := 0 })], records := [(0, { content := zeroRecord, digest := 0 })] } }
      isPoisoned u .row 0 = false ∧ rowDigest (rowAt u 0).content ≠ (rowAt u 0).digest ∧ (readRow 0 u).1 = none ∧
        isPoisoned u .seat 0 = false ∧ recordDigest (recordAt u 0).content ≠ (recordAt u 0).digest ∧
        (readRecord 0 u).1 = none ∧ u.sst.store = store ∧ u.sst.poison.length = n ∧ u.rpu.fault.held = false) ∧
    (let f := { FaultRecord.clear with held := true, cls := .rowCheck, further := 255, marks := 1 }
     f.held = true ∧ f.marks.getLsbD FaultClass.rowCheck.code = true ∧ f.marks.getLsbD FaultClass.seatCheck.code = false) ∧
    (∀ st, st ∈ [SlotState.live, .wiping, .abandoned, .closed] →
      ((withSlot 3 st .steady State.reset).slot 3).state = st ∧
      ((withSlot 3 st .steady State.reset).granting 3 = decide (st = .live))) := by decide +kernel

theorem witness_ReportsAreQueued :
    State.reset.rpu.places < 64 ∧ (ReportBody.storeReady.urgent = false ∨ ReportBody.storeReady.urgent = true) ∧
    (let routine : ReportEntry := { stamp := 0, body := .result 9 29 .taken .none .none [] }
     let urgent : ReportEntry := { stamp := 0, body := .restart .resetn 0 Progress.reset }
     routine.body.urgent = false ∧ urgent.body.urgent = true ∧ routine.body.resultOf = some 9 ∧
     64 ≤ { Rpu.reset with entries := List.replicate 63 urgent ++ [routine] }.places ∧
     List.replicate 63 urgent ++ [routine] = List.replicate 63 urgent ++ routine :: [] ∧
     ∀ e ∈ List.replicate 64 urgent, e.body.urgent = true) := by decide +kernel

/-! ## One step each: values from the spec's tables or worked out by hand -/

/-- The state that a row leaves. -/
def after (i : Instr) (s : State) : State :=
  match exec i s with
  | .next t => t
  | .fault _ => s
  | .refused _ => s

/-- The codes of the RESULT queued last. -/
def lastCodes (s : State) : Option (List CodeValue) :=
  match s.rpu.entries.getLast? with
  | some { stamp := _, body := .result _ _ _ _ _ codes } => some codes
  | _ => none

/-- The result and reason of the RESULT queued last. -/
def lastResult (s : State) : Option (CommandResult × RefusalReason) :=
  match s.rpu.entries.getLast? with
  | some { stamp := _, body := .result _ _ res reason _ _ } => some (res, reason)
  | _ => none

/-- The block gives its commands no bits. -/
theorem test_decode_none : decodeTableWord 8 0 = none := by decide

/-- Section 5.9: the early price in ON_SALE, taken from the credit. -/
theorem test_purchase_early :
    let t := after (.purchase 5 3 0) (seatFive false false 0 2000 (seatItem (.purchase 5 3 0) .ready .onSale 90000))
    (recordAt t 5).content.credit = 500 ∧ (recordAt t 5).content.paid.get 3 = 1500 ∧
    (rowAt t 0).content.purchase.get 3 = 32 ∧ t.gcr.fresh = [{ cohort := 0, slot := 3, left := 2 }] ∧
    lastCodes t = some [⟨.done, 1500⟩] := by decide +kernel

/-- Section 5.9: the late charge 15 minutes into the match. -/
theorem test_purchase_late :
    let t := after (.purchase 5 3 0) (seatFive false false 0 1715 (seatItem (.purchase 5 3 0) .ready .live 81270000))
    (recordAt t 5).content.credit = 0 ∧ lastCodes t = some [⟨.done, 1715⟩] := by decide +kernel

/-- R85: 535 of the 1,000 fit under the cap of 65,535. -/
theorem test_refund_capped :
    let s := seatFive true false 0 65000 (seatItem (.refund 5 3) .ready .live 270000)
    let t := after (.refund 5 3) (withRecord 5 ((recordAt s 5).content.setPaid 3 1000) s)
    (recordAt t 5).content.credit = 65535 ∧ (recordAt t 5).content.sat = 1 ∧ (recordAt t 5).content.paid.get 3 = 0 ∧
    (rowAt t 0).content.purchase.get 3 = 0 ∧ lastCodes t = some [⟨.capped, 535⟩] := by decide +kernel

theorem test_withdraw_keeps_credit :
    let t := after (.withdraw 5 3) (seatFive true false 0 10 (seatItem (.withdraw 5 3) .ready .live 270000))
    (recordAt t 5).content.credit = 10 ∧ (rowAt t 0).content.purchase.get 3 = 0 ∧
    ((t.record 3).map (·.rollover)) = some .steady := by decide +kernel

theorem test_suspend_already :
    lastCodes (after (.suspend 5) (seatFive true true 0 0 (seatItem (.suspend 5) .ready .live 270000))) =
      some [⟨.already, 0⟩] := by decide +kernel

/-- R7, R34, R109: a commit into an EMPTY slot. -/
theorem test_commit_claims :
    let t := after (.commitSchedule 3) (executing (.commitSchedule 3)
      ((atTime 0 State.reset).setSlot 3 { MatchSlot.reset with staged := some record59 }))
    (t.slot 3).state = .scheduled ∧ t.siu.classOf 0x20 = .service 3 ∧ t.siu.classOf 0x21 = .ownedWord 3 ∧ t.draws = 3 ∧
    lastCodes t = some [⟨.done, 0⟩] := by decide +kernel

/-- R39: the whistle in EXTENDED 10 minutes past scheduled end marks that moment. -/
theorem test_whistle_extended :
    ((after (.finalWhistle 3) (executing (.finalWhistle 3) (slotAt .extended 600000000))).slot 3).endMark =
      some 600000000 := by decide +kernel

/-- R39: before scheduled end the mark is scheduled end, 270,000 + 6,300 × 90,000. -/
theorem test_whistle_live :
    ((after (.finalWhistle 3) (executing (.finalWhistle 3) (slotAt .live 300000))).slot 3).endMark =
      some 567270000 := by decide +kernel

/-- R44: region 17 is blacked out already, region 18 is not. -/
theorem test_blackout_counts_changes :
    (after (.setBlackout 3 0 [17, 18, 18])
      (executing (.setBlackout 3 0 [17, 18, 18]) (slotAt .live 300000))).rpu.entries.getLast?.map (·.body) =
    some (.result 9 9 .taken .none (.regions 1) []) := by decide +kernel

/-- R60: the 32 equal record digests cancel, so the signature is the row's digest. -/
theorem test_clear_step :
    let t := after .clearWalkStep State.reset
    t.sst.signature = 0x53631199 ∧ (t.sst.walk.map (·.cohort)) = some 1 := by decide +kernel

/-- R11: with the default Fill Rate a slot is due every 675 periods of REFCLK. -/
theorem test_fill_slot :
    (after .fillSlot { State.reset with siu := { Siu.reset with fill := { elapsed := 675, created := 0, sinceLast := 675 } }
      }).out.positions = [.free .fill] := by decide +kernel

/-- R146, R154: nothing to send makes a null packet. -/
theorem test_null_inserted :
    (after .freeSlot atFreeSlot).out.sending = some { bytes := nullPacket, emission := .quiet } := by decide +kernel

/-- R119: a pass event with two passes owed. -/
theorem test_pass_event :
    let t := after .grantMessageEmitted
      (output [] (some { bytes := [], emission := .sweep [] true }) (withSlot 3 .live .sweeping State.reset))
    (t.record 3).map (fun r => (r.passesLeft, r.rollover)) = some (1, .sweeping) := by decide +kernel

/-- R109, R115: the boundary at a SWITCHING slot. -/
theorem test_switch_at_boundary :
    ((after .cryptoPeriodBoundary (atBoundary .live .switching)).record 3).map
      (fun r => (r.epoch, r.currentKey, r.rollover, r.phase)) = some (1, { serial := 3 }, .steady, .odd) := by decide +kernel

/-- R117: a PENDING slot begins to sweep; at a pass start it owes Rollover Passes passes. -/
theorem test_sweep_begins :
    ((after .cryptoPeriodBoundary (atBoundary .live .pending)).record 3).map
      (fun r => (r.rollover, r.passesLeft, r.epoch)) = some (.sweeping, 2, 0) := by decide +kernel

/-- R163: 61 seconds is clamped to 60. -/
theorem test_settings_clamp :
    let t := after (.setSettings [(1, 61), (3, 0)]) (executing (.setSettings [(1, 61), (3, 0)]) State.reset)
    t.settings.cryptoPeriod = 60 ∧ t.settings.grantPace = 0 ∧ lastCodes t = some [⟨.clamped, 0⟩, ⟨.done, 0⟩] := by
  decide +kernel

/-- R160: kind 0 is no command. -/
theorem test_bad_kind : lastResult (after .commandStart (queued (commandBody 21 0 0 0 0 0 []))) =
    some (.badKind, .none) := by decide +kernel

/-- R160: an item too many. -/
theorem test_bad_length : lastResult (after .commandStart (queued (commandBody 21 29 0 0 0 1 []))) =
    some (.badLength, .none) := by decide +kernel

/-- R166, section 10.5: a per-item command's unit count is its item count, though its length is wrong. -/
theorem test_bad_length_units :
    (after .commandStart (queued (commandBody 21 12 0 0 0 3 []))).cmu.progress.unitCount = 3 := by decide +kernel

/-- R168: RESTART enters hold with its record COMPLETE and no RESULT. -/
theorem test_restart :
    let t := after .restart (executing .restart State.reset)
    t.power.phase = .holding ∧ t.cmu.progress.endMethod = .complete ∧ t.rpu.entries = State.reset.rpu.entries := by
  decide +kernel

/-- R167 step 2: the unit in hand completes after entry into hold; the record shows it, no RESULT is written, and the store
settles. -/
theorem test_unit_in_hand :
    let s := seatFive true false 0 0 (inHand (.topUpCredit 5 7) (inStore .ready (slotAt .live 270000)))
    let t := after (.topUpCredit 5 7) s
    (recordAt t 5).content.credit = 7 ∧ t.cmu.executing = none ∧ t.cmu.progress.unitsApplied = 1 ∧
    t.power.phase = .holding ∧ t.sst.selfRefresh = true ∧ t.rpu.entries = s.rpu.entries := by decide +kernel

/-- R167: PWARN asserted in a part already in hold changes nothing, so RESTART's own reset follows (R168). -/
theorem test_pwarn_in_hold :
    let s := { State.reset with power := { Power.reset with phase := .held, restartHold := true } }
    (after .restartSelfReset (after .holdEntry s)).power.phase = .running := by decide +kernel

/-- R75, R168: a warm start verifies, and its RESTART report comes first. -/
theorem test_warm_start :
    let t := after (.resetn .nothing) { State.reset with cmu := { Cmu.reset with lastAccepted := 9 } }
    t.sst.store = .verifying ∧ t.cmu.lastAccepted = 9 ∧
    t.rpu.entries.head?.map (·.body) = some (.restart .resetn 9 Progress.reset) := by decide +kernel

/-- R75, R178: a failed retained check makes the start COLD and is the first fault. -/
theorem test_cold_start :
    let t := after (.resetn .nothing) { State.reset with power := { Power.reset with checkHolds := false } }
    t.sst.store = .clearing ∧ t.rpu.fault.held = true ∧ t.rpu.fault.cls = .retainedCheck := by decide +kernel

/-- R17: the 300th period of REFCLK is a local tick. -/
theorem test_local_tick :
    (match step { State.reset with tbu := { Tbu.reset with refDivider := 299 } } with
     | .next t => some (t.tbu.tick, t.tbu.refDivider)
     | .fault _ => none
     | .refused _ => none) = some (1, 0) := by decide +kernel

/-- R17: the tick counter counts in hold, after the confirmation too. -/
theorem test_tick_in_hold :
    (match step (inPhase .held { State.reset with tbu := { Tbu.reset with refDivider := 299 } }) with
     | .next t => some t.tbu.tick
     | .fault _ => none
     | .refused _ => none) = some 1 := by decide +kernel

/-- R120, section 7.1: the sweep ages that end with a tick are counted before its boundary, whatever the free values are. -/
theorem test_boundary_behind_age (seed : Nat) :
    arrange seed 0 [.sweepAgeIncrement 3, .cryptoPeriodBoundary] [] = [.sweepAgeIncrement 3, .cryptoPeriodBoundary] := by
  simp [arrange, firstPlace, pastAges, putAt, isAgeRow, Nat.mod_one]

/-- R2: a byte in LOCKED ends the silence; without one, 10 ms are an input loss. -/
theorem test_silence_in_locked :
    let s := syncing .locked 3 0 900 State.reset
    (after .lockedSilenceTimeout s).siu.lock = .hunt ∧
    (after .lockedSilenceTimeout (after (.syncCandidate 0) s)).siu.lock = .locked := by decide +kernel

/-- R1: a sync byte in HUNT begins CHECK. -/
theorem test_sync_in_hunt : (after (.syncCandidate 0x47) State.reset).siu.lock = .check := by decide +kernel

/-- R57, R58: a house seat joins the list and leaves it. -/
theorem test_house_seat :
    (after (.addHouseSeat 7) (executing (.addHouseSeat 7) State.reset)).sst.house = [7] ∧
    (after (.removeHouseSeat 7) (executing (.removeHouseSeat 7)
      { State.reset with sst := { Sst.reset with house := [7] } })).sst.house = [] := by decide +kernel

/-- R6: an identifier that is PASS becomes DROP; the NULL identifier stays. -/
theorem test_pid_class :
    (after (.setPidClass 0x20 1) (executing (.setPidClass 0x20 1) State.reset)).siu.classOf 0x20 = .drop ∧
    lastCodes (after (.setPidClass 0x1FFF 1) (executing (.setPidClass 0x1FFF 1) State.reset)) =
      some [⟨.pidReserved, 0⟩] := by decide +kernel

end Sys2Proof.Tests
end

/-! SUPPORT. The PID Map and the continuity counters: what a class, a claim, a release and a moved mark leave to be read
(R5 to R8, R13). -/

namespace Sys2Proof.Machine

section PidMap
variable {u : Siu} {p q : Nat} {c : PidClass}

theorem classOf_setClass (h : sparseWf .pass u.pidMap = true) :
    (u.setClass p c).classOf q = if q = p then c else u.classOf q := sparseGet_set h p q c

theorem setClass_pidMapWf (h : sparseWf .pass u.pidMap = true) : sparseWf .pass (u.setClass p c).pidMap = true :=
  sparseWf_set h p c

@[simp] theorem zeroCounter_pidMap (u : Siu) (p : Nat) : (u.zeroCounter p).pidMap = u.pidMap := rfl

@[simp] theorem zeroCounter_classOf (u : Siu) (p q : Nat) : (u.zeroCounter p).classOf q = u.classOf q := rfl

/-- The same class given to every identifier of a list. -/
theorem foldl_setClass (l : List Nat) (c : PidClass) (u : Siu) (h : sparseWf .pass u.pidMap = true) :
    sparseWf .pass (l.foldl (fun v p => v.setClass p c) u).pidMap = true ∧
    ∀ q, (l.foldl (fun v p => v.setClass p c) u).classOf q = if q ∈ l then c else u.classOf q := by
  induction l generalizing u with
  | nil => exact ⟨h, fun q => by simp⟩
  | cons p l ih =>
    obtain ⟨hwf, hget⟩ := ih (u.setClass p c) (setClass_pidMapWf h)
    refine ⟨hwf, fun q => (hget q).trans ?_⟩
    rw [classOf_setClass h]
    by_cases hp : q = p <;> by_cases hl : q ∈ l <;> simp [hp, hl]

/-! ## Marks (R8, R13) -/

theorem classOf_mark (h : sparseWf .pass u.pidMap = true) : (u.mark p c).classOf q = if q = p then c else u.classOf q :=
  classOf_setClass h

theorem mark_pidMapWf (h : sparseWf .pass u.pidMap = true) : sparseWf .pass (u.mark p c).pidMap = true :=
  setClass_pidMapWf h

/-- The counter that an identifier has in a Stream Input Unit, 0 where none is listed (R13). -/
def Siu.counter (u : Siu) (p : Nat) : BitVec 4 := sparseGet 0 u.continuity p

theorem counterOf_eq (s : State) (p : Nat) : counterOf s p = s.siu.counter p := rfl

theorem counter_mark (h : sparseWf 0 u.continuity = true) : (u.mark p c).counter q = if q = p then 0 else u.counter q :=
  sparseGet_set h p q 0

theorem mark_continuityWf (h : sparseWf 0 u.continuity = true) : sparseWf 0 (u.mark p c).continuity = true :=
  sparseWf_set h p 0

/-- Identifiers that lose their mark are PASS, the others keep their class. -/
theorem foldl_mark_classOf (l : List Nat) (c : PidClass) (u : Siu) (h : sparseWf .pass u.pidMap = true) :
    sparseWf .pass (l.foldl (fun v p => v.mark p c) u).pidMap = true ∧
    ∀ q, (l.foldl (fun v p => v.mark p c) u).classOf q = if q ∈ l then c else u.classOf q := by
  induction l generalizing u with
  | nil => exact ⟨h, fun q => by simp⟩
  | cons p l ih =>
    obtain ⟨hwf, hget⟩ := ih (u.mark p c) (mark_pidMapWf h)
    refine ⟨hwf, fun q => (hget q).trans ?_⟩
    rw [classOf_mark h]
    by_cases hp : q = p <;> by_cases hl : q ∈ l <;> simp [hp, hl]

/-- Identifiers that are marked have their counter at 0, the others keep theirs. -/
theorem foldl_mark_counter (l : List Nat) (c : PidClass) (u : Siu) (h : sparseWf 0 u.continuity = true) :
    sparseWf 0 (l.foldl (fun v p => v.mark p c) u).continuity = true ∧
    ∀ q, (l.foldl (fun v p => v.mark p c) u).counter q = if q ∈ l then 0 else u.counter q := by
  induction l generalizing u with
  | nil => exact ⟨h, fun q => by simp⟩
  | cons p l ih =>
    obtain ⟨hwf, hget⟩ := ih (u.mark p c) (mark_continuityWf h)
    refine ⟨hwf, fun q => (hget q).trans ?_⟩
    rw [counter_mark h]
    by_cases hp : q = p <;> by_cases hl : q ∈ l <;> simp [hp, hl]

/-- The marks that change hands when `old` gives way to `new`: identifiers that lose one and gain none. -/
def marksLost (old new : Settings) : List Nat := old.marks.filter fun p => !new.marks.contains p

theorem mem_marksLost {old new : Settings} : q ∈ marksLost old new ↔ q ∈ old.marks ∧ q ∉ new.marks := by
  simp [marksLost]

/-- A mark that is moved only where the setting changed. -/
def Siu.remark (u : Siu) (old new : Nat) (c : PidClass) : Siu := if new = old then u else u.mark new c

theorem moveMarks_eq (old new : Settings) (u : Siu) : moveMarks old new u =
    ((((marksLost old new).foldl (fun v p => v.mark p .pass) u).remark old.controlPid new.controlPid .control).remark
      old.reportPid new.reportPid .ownedReport).remark old.grantPid new.grantPid .ownedGrant := rfl

theorem remark_classOf {a b : Nat} (h : sparseWf .pass u.pidMap = true) :
    sparseWf .pass (u.remark a b c).pidMap = true ∧
    ∀ q, (u.remark a b c).classOf q = if b ≠ a ∧ q = b then c else u.classOf q := by
  unfold Siu.remark
  by_cases hab : b = a
  · simp [hab, h]
  · simp only [if_neg hab]
    exact ⟨mark_pidMapWf h, fun q => by rw [classOf_mark h]; simp [hab]⟩

theorem remark_counter {a b : Nat} (h : sparseWf 0 u.continuity = true) :
    sparseWf 0 (u.remark a b c).continuity = true ∧
    ∀ q, (u.remark a b c).counter q = if b ≠ a ∧ q = b then 0 else u.counter q := by
  unfold Siu.remark
  by_cases hab : b = a
  · simp only [if_pos hab]
    exact ⟨h, fun q => by simp [hab]⟩
  · simp only [if_neg hab]
    exact ⟨mark_continuityWf h, fun q => by rw [counter_mark h]; simp [hab]⟩

/-- What the PID Map gives once the marks have moved together (R8). -/
theorem moveMarks_classOf (old new : Settings) (u : Siu) (h : sparseWf .pass u.pidMap = true) :
    sparseWf .pass (moveMarks old new u).pidMap = true ∧
    ∀ q, (moveMarks old new u).classOf q =
      if new.grantPid ≠ old.grantPid ∧ q = new.grantPid then .ownedGrant
      else if new.reportPid ≠ old.reportPid ∧ q = new.reportPid then .ownedReport
      else if new.controlPid ≠ old.controlPid ∧ q = new.controlPid then .control
      else if q ∈ old.marks ∧ q ∉ new.marks then .pass else u.classOf q := by
  rw [moveMarks_eq]
  obtain ⟨lostWf, lost⟩ := foldl_mark_classOf (marksLost old new) .pass u h
  obtain ⟨controlWf, control⟩ := remark_classOf (c := .control) (a := old.controlPid) (b := new.controlPid) lostWf
  obtain ⟨reportWf, report⟩ := remark_classOf (c := .ownedReport) (a := old.reportPid) (b := new.reportPid) controlWf
  obtain ⟨grantWf, grant⟩ := remark_classOf (c := .ownedGrant) (a := old.grantPid) (b := new.grantPid) reportWf
  refine ⟨grantWf, fun q => ?_⟩
  rw [grant, report, control, lost]
  simp only [mem_marksLost]

/-- What the continuity counters are once the marks have moved together (R8, R13). -/
theorem moveMarks_counter (old new : Settings) (u : Siu) (h : sparseWf 0 u.continuity = true) (q : Nat) :
    (moveMarks old new u).counter q =
      if new.grantPid ≠ old.grantPid ∧ q = new.grantPid then 0
      else if new.reportPid ≠ old.reportPid ∧ q = new.reportPid then 0
      else if new.controlPid ≠ old.controlPid ∧ q = new.controlPid then 0
      else if q ∈ old.marks ∧ q ∉ new.marks then 0 else u.counter q := by
  rw [moveMarks_eq]
  obtain ⟨lostWf, lost⟩ := foldl_mark_counter (marksLost old new) .pass u h
  obtain ⟨controlWf, control⟩ := remark_counter (c := .control) (a := old.controlPid) (b := new.controlPid) lostWf
  obtain ⟨reportWf, report⟩ := remark_counter (c := .ownedReport) (a := old.reportPid) (b := new.reportPid) controlWf
  obtain ⟨-, grant⟩ := remark_counter (c := .ownedGrant) (a := old.grantPid) (b := new.grantPid) reportWf
  rw [grant, report, control, lost]
  simp only [mem_marksLost]

/-- Moving the marks changes the map and the counters alone. -/
theorem moveMarks_siu (old new : Settings) (u : Siu) : moveMarks old new u =
    { u with pidMap := (moveMarks old new u).pidMap, continuity := (moveMarks old new u).continuity } := by
  have hmark : ∀ (l : List Nat) (v : Siu), v = { u with pidMap := v.pidMap, continuity := v.continuity } →
      l.foldl (fun v p => v.mark p .pass) v = { u with
        pidMap := (l.foldl (fun v p => v.mark p .pass) v).pidMap
        continuity := (l.foldl (fun v p => v.mark p .pass) v).continuity } := by
    intro l
    induction l with
    | nil => exact fun v hv => hv
    | cons p l ih => exact fun v hv => ih _ (by rw [hv]; rfl)
  have hremark : ∀ (v : Siu) (a b : Nat) (c : PidClass), v = { u with pidMap := v.pidMap, continuity := v.continuity } →
      v.remark a b c = { u with pidMap := (v.remark a b c).pidMap, continuity := (v.remark a b c).continuity } := by
    intro v a b c hv
    unfold Siu.remark
    split
    · exact hv
    · rw [hv]; rfl
  rw [moveMarks_eq]
  exact hremark _ _ _ _ (hremark _ _ _ _ (hremark _ _ _ _ (hmark _ u rfl)))

end PidMap

/-! ## Claims and their release (R7, R43) -/

/-- The class of an identifier once slot m's claims are released (R7, R43). -/
theorem releaseClaims_classOf (m : SlotId) (s : State) (h : sparseWf .pass s.siu.pidMap = true) :
    sparseWf .pass (releaseClaims m s).siu.pidMap = true ∧
    ∀ q, (releaseClaims m s).siu.classOf q =
      if (∃ rec, s.live m = some rec ∧ q ∈ rec.claims) then .pass else s.siu.classOf q := by
  unfold releaseClaims
  cases hl : s.live m with
  | none => exact ⟨h, fun q => by simp⟩
  | some r => simpa using foldl_setClass r.claims .pass s.siu h

/-- Slot m enters CLOSED: its identifiers are PASS, every other keeps its class (R7, R43). -/
theorem enterClosed_classOf (m : SlotId) (c : StateCause) (s : State) (h : sparseWf .pass s.siu.pidMap = true) :
    sparseWf .pass (enterClosed m c s).siu.pidMap = true ∧
    ∀ q, (enterClosed m c s).siu.classOf q =
      if (∃ rec, s.live m = some rec ∧ q ∈ rec.claims) then .pass else s.siu.classOf q := by
  have hsiu : (enterClosed m c s).siu = (releaseClaims m (enterState m .closed c s)).siu := by
    unfold enterClosed
    dsimp only
    split <;> simp
  have hlive : (enterState m .closed c s).live m = s.live m := by simp [State.live, enterState_slot]
  have hr := releaseClaims_classOf m (enterState m .closed c s) (by simpa using h)
  rw [hlive] at hr
  rw [hsiu]
  simpa using hr

/-- The class of an identifier once slot m's record has claimed its own (R7). -/
theorem claim_classOf (m : SlotId) (r : MatchRecord) (u : Siu) (h : sparseWf .pass u.pidMap = true) :
    sparseWf .pass (claim m r u).pidMap = true ∧
    ∀ q, (claim m r u).classOf q =
      if q = r.wordPid then .ownedWord m else if q ∈ r.servicePids then .service m else u.classOf q := by
  obtain ⟨hwf, hget⟩ := foldl_setClass r.servicePids (.service m) u h
  refine ⟨setClass_pidMapWf (p := r.wordPid) (c := .ownedWord m) hwf, fun q => ?_⟩
  have := classOf_setClass (p := r.wordPid) (q := q) (c := .ownedWord m) hwf
  rw [hget] at this
  exact this

end Sys2Proof.Machine

/-! SUPPORT. The invariant of the PID Map (R5 to R8): a canonical map that gives every claimed identifier to its slot and keeps
the marks, and how each operation of the part keeps it. -/

namespace Sys2Proof.Machine

/-! ## The invariant -/

/-- The invariant of `PidsStayLawful`: the PID Map is canonical and agrees with the claims and the marks. -/
structure PidsHold (s : State) : Prop where
  canonical : sparseWf .pass s.siu.pidMap = true
  lawful : s.pidsLawful

/-- The identifiers that slot m claims in its present state: its record's service PIDs and its Word PID (section 3.4). -/
def State.claimed (s : State) (m : SlotId) : Option (List Nat × Nat) :=
  if (s.slot m).state.claimed then (s.live m).map fun rec => (rec.servicePids, rec.wordPid) else none

theorem claimed_eq_some {s : State} {m : SlotId} {ids : List Nat × Nat} :
    s.claimed m = some ids ↔
      (s.slot m).state.claimed = true ∧ ∃ rec, s.live m = some rec ∧ rec.servicePids = ids.1 ∧ rec.wordPid = ids.2 := by
  obtain ⟨service, word⟩ := ids
  unfold State.claimed
  split <;> simp_all

/-- An identifier of a slot's claim is the slot's in the PID Map. -/
def ownedBy (u : Siu) (m : SlotId) (ids : List Nat × Nat) : Prop :=
  (∀ p ∈ ids.1, u.classOf p = .service m) ∧ u.classOf ids.2 = .ownedWord m

/-- The law of the PID Map, its two clauses on a slot's identifiers in one. -/
theorem pidsLawful_iff {s : State} : s.pidsLawful ↔
    (∀ m ids, s.claimed m = some ids → ownedBy s.siu m ids) ∧ s.siu.classOf s.settings.controlPid = .control ∧
    s.siu.classOf s.settings.reportPid = .ownedReport ∧ s.siu.classOf s.settings.grantPid = .ownedGrant ∧
    s.siu.classOf 0x1FFF = .null := by
  constructor
  · intro h
    refine ⟨fun m ids hi => ?_, h.control, h.report, h.grant, h.null⟩
    obtain ⟨hc, rec, hl, hs, hw⟩ := claimed_eq_some.mp hi
    exact ⟨fun p hp => h.service m rec hl hc p (hs ▸ hp), hw ▸ h.word m rec hl hc⟩
  · rintro ⟨owned, control, report, grant, null⟩
    have owned' : ∀ m rec, s.live m = some rec → (s.slot m).state.claimed = true →
        ownedBy s.siu m (rec.servicePids, rec.wordPid) :=
      fun m rec hl hc => owned m _ (claimed_eq_some.mpr ⟨hc, rec, hl, rfl, rfl⟩)
    exact ⟨fun m rec hl hc => (owned' m rec hl hc).1, fun m rec hl hc => (owned' m rec hl hc).2, control, report, grant, null⟩

section Keeping
variable {s t : State}

theorem claimed_of_mtb (h : t.mtb = s.mtb) (m : SlotId) : t.claimed m = s.claimed m := by
  simp [State.claimed, slot_of_mtb h, live_of_mtb h]

theorem claimed_of_slot {m : SlotId} (h : t.slot m = s.slot m) : t.claimed m = s.claimed m := by
  simp [State.claimed, State.live, h]

/-- What leaves map and settings and adds no claim keeps the invariant. -/
theorem PidsHold.of_claims (h : PidsHold s) (map : t.siu.pidMap = s.siu.pidMap) (settings : t.settings = s.settings)
    (claims : ∀ m ids, t.claimed m = some ids → s.claimed m = some ids) : PidsHold t := by
  obtain ⟨owned, marks⟩ := pidsLawful_iff.mp h.lawful
  have hclass : ∀ p, t.siu.classOf p = s.siu.classOf p := fun p => by rw [Siu.classOf, map]; rfl
  refine ⟨map ▸ h.canonical, pidsLawful_iff.mpr ?_⟩
  simp only [hclass, settings, ownedBy] at owned ⊢
  exact ⟨fun m ids hi => owned m ids (claims m ids hi), marks⟩

/-- What leaves map, slots and settings keeps the invariant. -/
theorem PidsHold.of_same (h : PidsHold s) (map : t.siu.pidMap = s.siu.pidMap) (mtb : t.mtb = s.mtb)
    (settings : t.settings = s.settings) : PidsHold t :=
  h.of_claims map settings fun m _ hi => claimed_of_mtb mtb m ▸ hi

/-- What leaves map and settings and changes slot m alone keeps the invariant where slot m claims nothing new. -/
theorem PidsHold.of_slot (h : PidsHold s) (m : SlotId) (map : t.siu.pidMap = s.siu.pidMap)
    (settings : t.settings = s.settings) (others : ∀ n, n ≠ m → t.slot n = s.slot n)
    (claim : ∀ ids, t.claimed m = some ids → s.claimed m = some ids) : PidsHold t := by
  refine h.of_claims map settings fun n ids hi => ?_
  by_cases hn : n = m
  · subst hn; exact claim ids hi
  · exact claimed_of_slot (others n hn) ▸ hi

/-- A fold whose every step keeps the invariant keeps it. -/
theorem PidsHold.foldl {β : Type} {g : State → β → State} (hg : ∀ t b, PidsHold t → PidsHold (g t b)) (l : List β)
    (h : PidsHold s) : PidsHold (l.foldl g s) := by
  induction l generalizing s with
  | nil => exact h
  | cons b l ih => exact ih (hg s b h)

/-! ## Changes of slot state -/

/-- An unclaimed state claims nothing. -/
theorem claimed_of_unclaimed {m : SlotId} (h : (s.slot m).state.claimed = false) : s.claimed m = none := by
  simp [State.claimed, h]

/-- A claimed slot that takes another state claims nothing new. -/
theorem PidsHold.enterState (h : PidsHold s) (m : SlotId) (dest : SlotState) (c : StateCause)
    (hc : dest.claimed = true → (s.slot m).state.claimed = true) : PidsHold (enterState m dest c s) := by
  refine h.of_slot m (by simp) (by simp) (fun n hn => by simp [enterState_slot, hn]) fun ids hi => ?_
  rw [claimed_eq_some] at hi ⊢
  obtain ⟨hd, hl⟩ := hi
  simp only [State.live, enterState_slot, if_true] at hd hl
  exact ⟨hc hd, hl⟩

theorem PidsHold.enterEnded (h : PidsHold s) (m : SlotId) (mark : StreamTime) (c : StateCause)
    (hc : (s.slot m).state.claimed = true) : PidsHold (enterEnded m mark c s) := by
  refine h.of_slot m (by simp) (by simp) (fun n hn => by simp [enterEnded_slot, hn]) fun ids hi => ?_
  rw [claimed_eq_some] at hi ⊢
  simp only [State.live, enterEnded_slot, if_true] at hi
  exact ⟨hc, hi.2⟩

theorem PidsHold.enterEmpty (h : PidsHold s) (m : SlotId) (c : StateCause) : PidsHold (enterEmpty m c s) := by
  refine h.of_slot m (by simp) (by simp) (fun n hn => by simp [enterEmpty_slot, hn]) fun ids hi => ?_
  rw [claimed_of_unclaimed (by simp [enterEmpty_slot, SlotState.claimed])] at hi
  contradiction

/-- The identifiers of one slot's claim are neither another slot's nor marked. -/
theorem PidsHold.release_apart (h : PidsHold s) {m : SlotId} {rec : MatchRecord} (hl : s.live m = some rec)
    (hc : (s.slot m).state.claimed = true) {p : Nat} (hp : p ∈ rec.claims) :
    s.siu.classOf p = .service m ∨ s.siu.classOf p = .ownedWord m := by
  rcases List.mem_append.mp hp with hp | hp
  · exact .inl (h.lawful.service m rec hl hc p hp)
  · rw [List.mem_singleton.mp hp]
    exact .inr (h.lawful.word m rec hl hc)

/-- A claimed slot that becomes CLOSED releases its own identifiers and no others (R7, R43). -/
theorem PidsHold.enterClosed (h : PidsHold s) (m : SlotId) (c : StateCause) (hc : (s.slot m).state.claimed = true) :
    PidsHold (enterClosed m c s) := by
  obtain ⟨owned, control, report, grant, null⟩ := pidsLawful_iff.mp h.lawful
  obtain ⟨hwf, hget⟩ := enterClosed_classOf m c s h.canonical
  have keeps : ∀ p, s.siu.classOf p ≠ .service m → s.siu.classOf p ≠ .ownedWord m →
      (Machine.enterClosed m c s).siu.classOf p = s.siu.classOf p := by
    intro p hs hw
    rw [hget, if_neg]
    rintro ⟨rec, hl, hp⟩
    exact (h.release_apart hl hc hp).elim hs hw
  refine ⟨hwf, pidsLawful_iff.mpr ⟨fun n ids hi => ?_, ?_, ?_, ?_, ?_⟩⟩
  · by_cases hn : n = m
    · rw [hn, claimed_of_unclaimed (by simp [enterClosed_slot, SlotState.claimed])] at hi
      contradiction
    · rw [claimed_of_slot (s := s) (by simp [enterClosed_slot, hn])] at hi
      obtain ⟨hs, hw⟩ := owned n ids hi
      exact ⟨fun p hp => by rw [keeps p (by simp [hs p hp, hn]) (by simp [hs p hp]), hs p hp],
        by rw [keeps _ (by simp [hw]) (by simp [hw, hn]), hw]⟩
  · simpa [keeps s.settings.controlPid (by simp [control]) (by simp [control])] using control
  · simpa [keeps s.settings.reportPid (by simp [report]) (by simp [report])] using report
  · simpa [keeps s.settings.grantPid (by simp [grant]) (by simp [grant])] using grant
  · simpa [keeps 0x1FFF (by simp [null]) (by simp [null])] using null

/-! ## Advances of stream time (R37) -/

/-- What a time-driven transition does to a slot: a claimed state gives way to another, to ENDED, or ENDED to CLOSED (R37). -/
theorem advanceOnce_cases {m : SlotId} (h : advanceOnce m s = some t) :
    (s.slot m).state.claimed = true ∧
    ((∃ dest, t = enterState m dest .time s ∨
        t = startWords m (enterState m dest .time s)) ∨
      (∃ mark, t = enterEnded m mark .time s) ∨ t = enterClosed m .time s) := by
  have taken : ∀ {c : Prop} [Decidable c] {u : State}, (if c then some u else none) = some t → t = u := by
    intro c _ u hu
    simpa using (Option.ite_none_right_eq_some.mp hu).2.symm
  unfold advanceOnce at h
  split at h
  · split at h
    case h_1 hs => exact ⟨by rw [hs]; rfl, .inl ⟨_, .inl (taken h)⟩⟩
    case h_2 hs => exact ⟨by rw [hs]; rfl, .inl ⟨_, .inr (taken h)⟩⟩
    case h_3 hs => exact ⟨by rw [hs]; rfl, .inl ⟨_, .inl (taken h)⟩⟩
    case h_4 hs => exact ⟨by rw [hs]; rfl, .inl ⟨_, .inl (taken h)⟩⟩
    case h_5 hs => exact ⟨by rw [hs]; rfl, .inr (.inl ⟨_, taken h⟩)⟩
    case h_6 hs =>
      split at h
      · exact ⟨by rw [hs]; rfl, .inr (.inr (taken h))⟩
      · contradiction
    all_goals contradiction
  · contradiction

theorem PidsHold.evaluateSlot (m : SlotId) (n : Nat) (h : PidsHold s) : PidsHold (evaluateSlot m n s) := by
  induction n generalizing s with
  | zero => exact h
  | succ n ih =>
    unfold Machine.evaluateSlot
    split
    · next t ht =>
      obtain ⟨hc, ⟨dest, rfl | rfl⟩ | ⟨mark, rfl⟩ | rfl⟩ := advanceOnce_cases ht
      · exact ih (h.enterState m dest .time fun _ => hc)
      · exact ih ((h.enterState m dest .time fun _ => hc).of_same (by simp) (by simp) (by simp))
      · exact ih (h.enterEnded m mark .time hc)
      · exact ih (h.enterClosed m .time hc)
    · exact h

theorem PidsHold.evaluateAll (h : PidsHold s) : PidsHold (evaluateAll s) :=
  h.foldl (fun _ m ht => ht.evaluateSlot m 6) slotList

/-! ## The Seat Store -/

theorem PidsHold.offer (h : PidsHold s) (b : ReportBody) : PidsHold (offer b s) :=
  h.of_same (by simp) (by simp) (by simp)

theorem PidsHold.settleSlot (h : PidsHold s) (w : Option Walk) (m : SlotId) : PidsHold (settleSlot w m s) := by
  unfold Machine.settleSlot
  split
  · exact h.enterEmpty m .walkCut
  · next hs => exact (h.offer _).enterClosed m .walkCut (by rw [slot_of_mtb (s := s) (by simp), hs]; rfl)
  all_goals exact h

theorem PidsHold.enterClearing (h : PidsHold s) : PidsHold (enterClearing s) := h.of_same (by simp) (by simp) (by simp)

theorem PidsHold.cutAndClear (h : PidsHold s) : PidsHold (cutAndClear s) := by
  have hs : PidsHold { s with sst := { s.sst with walkQueue := [] } } := h.of_same rfl rfl rfl
  exact (hs.foldl (fun _ m ht => ht.settleSlot s.sst.walk m) slotList).enterClearing

theorem PidsHold.verifyLost (h : PidsHold s) (b : ReportBody) : PidsHold (verifyLost b s) := (h.offer b).cutAndClear

theorem PidsHold.digestFailure (h : PidsHold s) (k : ItemKind) (i : Nat) : PidsHold (digestFailure k i s) := by
  have poison : PidsHold (poisonItem k i s) := h.of_same (by simp) (by simp) (by simp)
  have fault : ∀ t, PidsHold t → PidsHold (takeFault .poisonOverflow i k t) :=
    fun t ht => ht.of_same (by simp) (by simp) (by simp)
  unfold Machine.digestFailure
  split
  · exact h
  · split
    · exact poison
    · exact fault _ (h.verifyLost _)
  · split
    · exact poison
    · exact fault _ (h.of_same (by simp) (by simp) (by simp))
  · exact fault _ h

theorem PidsHold.readRow (h : PidsHold s) (c : Nat) : PidsHold (readRow c s).2 := by
  rcases readRow_state c s with e | e <;> rw [e]
  · exact h
  · exact h.digestFailure .row c

theorem PidsHold.readRecord (h : PidsHold s) (n : Nat) : PidsHold (readRecord n s).2 := by
  rcases readRecord_state n s with e | e <;> rw [e]
  · exact h
  · exact h.digestFailure .seat n

end Keeping

end Sys2Proof.Machine

/-! SUPPORT. The PID Map's invariant over the Seat Store's walks, the grants, the stream path, the output side and the timers
(R5 to R8). -/

namespace Sys2Proof.Machine

section Keeping
variable {s t : State}

/-- An operation whose frame holds map, slots and settings keeps the invariant. -/
theorem PidsHold.of_frame (h : PidsHold s) (frame : t.siu.pidMap = s.siu.pidMap ∧ t.mtb = s.mtb ∧ t.settings = s.settings) :
    PidsHold t := h.of_same frame.1 frame.2.1 frame.2.2

/-! ## Walks (R60, R62, R64, R66 to R69, R91) -/

theorem PidsHold.verifyRow (h : PidsHold s) (c : Nat) : PidsHold (verifyRow c s) := by
  unfold Machine.verifyRow
  dsimp only
  split
  · exact (h.readRow c).of_frame (by simp)
  · exact h.readRow c

theorem PidsHold.verifyRecord (h : PidsHold s) (n : Nat) : PidsHold (verifyRecord n s) := by
  unfold Machine.verifyRecord
  split
  · dsimp only
    split
    · exact (h.readRecord n).of_frame (by simp)
    · exact h.readRecord n
  · exact h

theorem PidsHold.endVerify (h : PidsHold s) : PidsHold (endVerify s) := by
  unfold Machine.endVerify
  split
  · have ready : PidsHold (Machine.offer .storeReady { s with sst := { s.sst with store := .ready, walk := none } }) :=
      h.of_frame (by simp)
    exact ready.foldl (fun _ m ht => ht.of_frame (by simp)) slotList
  · exact h.verifyLost _

theorem PidsHold.verifyStep (h : PidsHold s) (c : Nat) : PidsHold (verifyStep c s) := by
  have read := (h.verifyRow c).foldl (fun _ i ht => ht.verifyRecord (seatOf c i)) memberList
  unfold Machine.verifyStep
  dsimp only
  split
  · split
    · exact read.of_frame (by simp)
    · exact read.endVerify
  · exact read

theorem PidsHold.wipeRow (h : PidsHold s) (m : SlotId) (c : Nat) : PidsHold (wipeRow m c s) := by
  have read := h.readRow c
  unfold Machine.wipeRow
  split
  · next e =>
    rw [e] at read
    split
    · exact read
    · exact read.of_frame (by simp)
  · next e => rw [e] at read; exact read.of_frame (by simp)

theorem PidsHold.wipeRecord (h : PidsHold s) (m : SlotId) (n : Nat) : PidsHold (wipeRecord m n s) := by
  have read := h.readRecord n
  unfold Machine.wipeRecord
  split
  · next e =>
    rw [e] at read
    split
    · exact read
    · exact read.of_frame (by simp)
  · next e => rw [e] at read; exact read.of_frame (by simp)

theorem PidsHold.wipeStep (h : PidsHold s) (m : SlotId) (c : Nat) : PidsHold (wipeStep m c s) := by
  have wiped := (h.wipeRow m c).foldl (fun _ i ht => ht.wipeRecord m (seatOf c i)) memberList
  have ended : ∀ {u}, PidsHold u → PidsHold (endWalk u) := fun hu => hu.of_frame (by simp)
  unfold Machine.wipeStep
  dsimp only
  split
  · exact wiped.of_frame (by simp)
  · exact ((ended wiped).offer _).enterEmpty m .walkEnd

/-- A checked read outside VERIFYING loses no verify: slots and store stay so (R52, R64). -/
theorem digestFailure_mtb (k : ItemKind) (i : Nat) (h : s.sst.store ≠ .verifying) :
    (digestFailure k i s).mtb = s.mtb ∧ (digestFailure k i s).sst.store ≠ .verifying := by
  unfold digestFailure
  split
  · exact ⟨rfl, h⟩
  · contradiction
  · split
    · refine ⟨by simp, ?_⟩
      cases k <;> simp [poisonItem, h]
    · exact ⟨by simp, by simp [storeFail]⟩
  · exact ⟨by simp, by simpa using h⟩

theorem readRow_mtb (c : Nat) (h : s.sst.store ≠ .verifying) :
    (readRow c s).2.mtb = s.mtb ∧ (readRow c s).2.sst.store ≠ .verifying := by
  rcases readRow_state c s with e | e <;> rw [e]
  · exact ⟨rfl, h⟩
  · exact digestFailure_mtb .row c h

theorem readRecord_mtb (n : Nat) (h : s.sst.store ≠ .verifying) :
    (readRecord n s).2.mtb = s.mtb ∧ (readRecord n s).2.sst.store ≠ .verifying := by
  rcases readRecord_state n s with e | e <;> rw [e]
  · exact ⟨rfl, h⟩
  · exact digestFailure_mtb .seat n h

/-- What one member's refund does to the state: a checked read, and then a write or a skip (R91). -/
theorem refundMember_state (m : SlotId) (c : Nat) (x : MemberMask × State) (i : Fin 32) :
    (refundMember m c x i).2 = x.2 ∨
    (∃ q, (refundMember m c x i).2 = writeRecord (seatOf c i) q (readRecord (seatOf c i) x.2).2) ∨
    (refundMember m c x i).2 = skipSeat (readRecord (seatOf c i) x.2).2 := by
  unfold refundMember
  split
  · split
    · next e => exact .inr (.inl ⟨_, by rw [e]⟩)
    · next e => exact .inr (.inr (by rw [e]))
  · exact .inl rfl

/-- What a cohort's refund does to the state: a checked read, then a skip, or the members' refunds and a write (R69). -/
theorem refundCohort_state (m : SlotId) (c : Nat) (s : State) :
    refundCohort m c s = skipRow (readRow c s).2 ∨
    ∃ mask, refundCohort m c s = (memberList.foldl (refundMember m c) (mask, (readRow c s).2)).2 ∨
      ∃ r, refundCohort m c s = writeRow c r (memberList.foldl (refundMember m c) (mask, (readRow c s).2)).2 := by
  unfold refundCohort
  split
  · next e => exact .inl (by rw [e])
  · next r t e =>
    refine .inr ⟨r.purchase.get m, ?_⟩
    rw [e]
    dsimp only
    split
    · exact .inl rfl
    · exact .inr ⟨_, rfl⟩

theorem PidsHold.refundCohort (h : PidsHold s) (m : SlotId) (c : Nat) : PidsHold (refundCohort m c s) := by
  have member : ∀ (x : MemberMask × State) (i : Fin 32), PidsHold x.2 → PidsHold (refundMember m c x i).2 := by
    intro x i hx
    rcases refundMember_state m c x i with e | ⟨q, e⟩ | e <;> rw [e]
    · exact hx
    · exact (hx.readRecord (seatOf c i)).of_frame (by simp)
    · exact (hx.readRecord (seatOf c i)).of_frame (by simp)
  have members : ∀ mask, PidsHold (memberList.foldl (refundMember m c) (mask, (Machine.readRow c s).2)).2 := fun mask =>
    List.foldlRecOn memberList (refundMember m c) (motive := fun x => PidsHold x.2) (h.readRow c) fun x hx i _ => member x i hx
  rcases refundCohort_state m c s with e | ⟨mask, e | ⟨r, e⟩⟩ <;> rw [e]
  · exact (h.readRow c).of_frame (by simp)
  · exact members mask
  · exact (members mask).of_frame (by simp)

/-- In READY a cohort's refund leaves the slots as they were. -/
theorem refundCohort_mtb (m : SlotId) (c : Nat) (h : s.sst.store ≠ .verifying) : (refundCohort m c s).mtb = s.mtb := by
  obtain ⟨rowMtb, rowStore⟩ := readRow_mtb c h
  have member : ∀ (x : MemberMask × State) (i : Fin 32), x.2.mtb = s.mtb ∧ x.2.sst.store ≠ .verifying →
      (refundMember m c x i).2.mtb = s.mtb ∧ (refundMember m c x i).2.sst.store ≠ .verifying := by
    intro x i ⟨hm, hs⟩
    obtain ⟨recMtb, recStore⟩ := readRecord_mtb (seatOf c i) hs
    rcases refundMember_state m c x i with e | ⟨q, e⟩ | e <;> rw [e]
    · exact ⟨hm, hs⟩
    · exact ⟨by simp [recMtb, hm], by simpa [writeRecord_eq] using recStore⟩
    · exact ⟨by simp [recMtb, hm], by simpa [skipSeat] using recStore⟩
  have members : ∀ mask, (memberList.foldl (refundMember m c) (mask, (readRow c s).2)).2.mtb = s.mtb := fun mask =>
    (List.foldlRecOn memberList (refundMember m c)
      (motive := fun x => x.2.mtb = s.mtb ∧ x.2.sst.store ≠ .verifying) ⟨rowMtb, rowStore⟩ fun x hx i _ => member x i hx).1
  rcases refundCohort_state m c s with e | ⟨mask, e | ⟨r, e⟩⟩ <;> rw [e]
  · simp [rowMtb]
  · exact members mask
  · simp [members mask]

/-- A REFUND step of an ABANDONED slot, the store READY: its end makes the slot CLOSED (R41, R43, R69). -/
theorem PidsHold.refundStep (h : PidsHold s) (m : SlotId) (c : Nat) (ready : s.sst.store = .ready)
    (hm : (s.slot m).state = .abandoned) : PidsHold (refundStep m c s) := by
  have refunded := h.refundCohort m c
  have ended : PidsHold (endWalk (Machine.refundCohort m c s)) := refunded.of_frame (by simp)
  have slot : (Machine.refundCohort m c s).slot m = s.slot m := slot_of_mtb (refundCohort_mtb m c (by simp [ready])) m
  unfold Machine.refundStep
  dsimp only
  split
  · exact refunded.of_frame (by simp)
  · refine (ended.offer _).enterClosed m .walkEnd ?_
    rw [slot_of_mtb (s := Machine.refundCohort m c s) (by simp), slot, hm]
    rfl

/-! ## Grants -/

theorem PidsHold.rowForBuild (h : PidsHold s) (c : Nat) (wanted : Bool) : PidsHold (rowForBuild c wanted s).2 := by
  unfold Machine.rowForBuild
  cases s.sst.store <;> cases wanted
  all_goals first | exact h | exact h.readRow c

theorem PidsHold.wrapEvent (h : PidsHold s) : PidsHold (wrapEvent s) := by
  have opened : PidsHold { s with gcr := { s.gcr with closing := false } } := h.of_same rfl rfl rfl
  refine opened.foldl (fun t m ht => ?_) slotList
  unfold passSlot
  split
  · exact ht.of_frame (by simp)
  · exact ht

theorem PidsHold.pack (h : PidsHold s) : PidsHold (pack s) := by
  unfold Machine.pack
  dsimp only
  split
  · exact h
  · split
    · split
      · exact h
      · exact h.of_same rfl rfl rfl
    · split
      · exact h.of_same rfl rfl rfl
      · exact h

theorem PidsHold.closePass (h : PidsHold s) : PidsHold (closePass s) := by
  have closed : PidsHold { s with gcr := { s.gcr with pointer := 0, closing := true } } := h.of_same rfl rfl rfl
  unfold Machine.closePass
  dsimp only
  split
  · exact closed.wrapEvent
  · exact closed.pack

theorem PidsHold.setGcr (h : PidsHold s) (g : Gcr) : PidsHold { s with gcr := g } := h.of_same rfl rfl rfl

theorem PidsHold.builderStep (h : PidsHold s) : PidsHold (builderStep s) := by
  have built : PidsHold (sweepBuild s.gcr.pointer s).2 := h.rowForBuild _ _
  unfold Machine.builderStep
  dsimp only
  split
  · exact h.closePass
  · split
    · exact (built.setGcr _).closePass
    · exact (built.setGcr _).pack

theorem PidsHold.takePairs (l taken : List FreshPair) (h : PidsHold s) : PidsHold (takePairs l taken s).2.2 := by
  induction l generalizing taken s with
  | nil => exact h
  | cons p rest ih =>
    unfold Machine.takePairs
    split
    · exact h
    · split
      · exact ih taken h
      · split
        · exact h
        · dsimp only
          split
          · exact ih taken (h.rowForBuild _ _)
          · exact ih _ ((h.rowForBuild _ _).setGcr _)

theorem PidsHold.freshBuild (h : PidsHold s) : PidsHold (freshBuild s).2.2 := (h.takePairs s.gcr.fresh []).setGcr _

/-! ## The stream path -/

theorem PidsHold.appendOut (h : PidsHold s) (p : OutPosition) : PidsHold (appendOut p s) := h.of_frame (by simp)

/-- Whatever the Timebase makes of a reference, slots leave their states by time alone (R20 to R22, R37). -/
theorem PidsHold.takeReference (h : PidsHold s) (ref : StreamTime) : PidsHold (takeReference ref s) := by
  have adopted : PidsHold (adopt ref s) := h.of_frame (by simp)
  have weighed : ∀ n, PidsHold (setCandidate ref n s) := fun n => h.of_frame (by simp)
  unfold Machine.takeReference
  split
  · exact (adopted.offer _).evaluateAll
  · dsimp only
    split
    · split
      · exact (adopted.offer _).evaluateAll
      · exact adopted.evaluateAll
    · split
      · exact weighed 1
      · split
        · split
          · exact (adopted.offer _).evaluateAll
          · exact weighed 2
        · exact weighed 1

theorem PidsHold.intake (h : PidsHold s) (p : List (BitVec 8)) : PidsHold (intake p s) := by
  have failed : PidsHold (countCheckFailure s) := h.of_same rfl rfl rfl
  unfold Machine.intake
  dsimp only
  split
  · exact h
  split
  · exact h
  split
  · exact failed
  split
  · exact failed
  split
  · unfold acceptBody
    dsimp only
    split
    · exact h.of_frame (by simp)
    split
    · exact h.of_same rfl rfl rfl
    · exact h.of_same rfl rfl rfl
  · exact failed

theorem PidsHold.decideFate (h : PidsHold s) (p : List (BitVec 8)) : PidsHold (decideFate p s) := by
  have counted : PidsHold (countPreScrambled s) := h.of_same rfl rfl rfl
  have collided : PidsHold (countCollision s) := h.of_same rfl rfl rfl
  unfold Machine.decideFate classFate
  split
  case h_2 =>
    split
    · exact counted.appendOut _
    · exact h.appendOut _
  case h_4 => exact (h.intake p).appendOut _
  case h_5 => exact collided.appendOut _
  case h_6 => exact collided.appendOut _
  case h_7 => exact collided.appendOut _
  all_goals exact h.appendOut _

theorem PidsHold.inputLoss (h : PidsHold s) (c : LossCause) : PidsHold (inputLoss c s) :=
  h.of_frame (by simp [Machine.inputLoss])

theorem PidsHold.handlePacket (h : PidsHold s) (p : List (BitVec 8)) : PidsHold (handlePacket p s) := by
  have errored : PidsHold (countError s) := h.of_same rfl rfl rfl
  unfold Machine.handlePacket
  split
  · exact errored.appendOut _
  · refine PidsHold.decideFate ?_ p
    unfold offerReference
    split
    · split
      · exact h.takeReference _
      · exact h
    · exact h

theorem PidsHold.lockByte (h : PidsHold s) (b : BitVec 8) : PidsHold (lockByte b s) := by
  unfold Machine.lockByte
  split
  · split
    · exact h.of_same rfl rfl rfl
    · exact h
  · split
    · unfold checkStart
      split
      · split
        · unfold gainLock
          dsimp only
          split <;> exact h.of_frame (by simp)
        · exact h.of_same rfl rfl rfl
      · exact h.of_same rfl rfl rfl
    · exact h.of_same rfl rfl rfl
  · exact h

/-! ## The output side -/

theorem PidsHold.place (h : PidsHold s) (pid : Nat) (content : List (BitVec 8)) (e : Emission) :
    PidsHold (place pid content e s) := h.of_same rfl (by simp) (by simp)

theorem PidsHold.placeSweep (h : PidsHold s) (lifted : Bool) (src : FreeSource) : PidsHold (placeSweep lifted src s) := by
  unfold Machine.placeSweep
  split
  · refine PidsHold.place ?_ _ _ _
    have packed : PidsHold (Machine.pack { s with gcr := { s.gcr with ready := none }, ina := { s.ina with freshRun := 0 } }) :=
      PidsHold.pack (h.of_same rfl rfl rfl)
    unfold payCredit
    split
    · exact packed
    · exact packed.of_same rfl rfl rfl
  · exact h.of_same rfl rfl rfl

theorem PidsHold.placeGrant (h : PidsHold s) (lifted : Bool) (src : FreeSource) : PidsHold (placeGrant lifted src s) := by
  unfold Machine.placeGrant
  split
  · dsimp only
    split
    · exact h.freshBuild.placeSweep lifted src
    · refine PidsHold.place ?_ _ _ _
      unfold payCredit
      split <;> exact h.freshBuild.of_same rfl rfl rfl
  · exact h.placeSweep lifted src

theorem PidsHold.fillFree (h : PidsHold s) (src : FreeSource) : PidsHold (fillFree src s) := by
  have unworded : PidsHold (placeUnworded src s) := by
    unfold placeUnworded
    split
    · exact h.of_same rfl rfl rfl
    split
    · exact h.of_same rfl rfl rfl
    split
    · exact h.placeGrant _ src
    · exact h.of_same rfl rfl rfl
  unfold Machine.fillFree
  split
  · split
    · exact PidsHold.place (h.of_frame (by simp)) _ _ _
    · exact unworded
  · exact unworded

/-- The state with the free slot taken differs in the output alone (R146). -/
theorem takeFree_out {x : FreeSource × State} (h : takeFree s = some x) : x.2 = { s with out := x.2.out } := by
  unfold takeFree at h
  split at h
  · split at h
    · cases h; rfl
    · split at h
      · cases h; rfl
      · contradiction
  · contradiction
  · contradiction

theorem PidsHold.grantEmitted (h : PidsHold s) (e : Emission) : PidsHold (grantEmitted e s) := by
  have issued : ∀ es : List GrantEntry, PidsHold (es.foldl issueEntry s) := by
    intro es
    refine h.foldl (fun t x ht => ?_) es
    unfold issueEntry
    split
    · split
      · exact ht.of_frame (by simp)
      · exact ht
    · exact ht
  unfold Machine.grantEmitted
  split
  · dsimp only
    split
    · exact (issued _).wrapEvent
    · exact issued _
  · exact (issued _).setGcr _
  · exact h
  · exact h

theorem PidsHold.completeSending (h : PidsHold s) : PidsHold (completeSending s) := h.of_frame (by simp)

/-! ## Timers -/

theorem PidsHold.setRecord (h : PidsHold s) (m : SlotId) (r : EpochRecord) : PidsHold (s.setRecord m r) := h.of_frame (by simp)

theorem PidsHold.setWordTimer (h : PidsHold s) (m : SlotId) (x : WordTimer) : PidsHold (s.setWordTimer m x) :=
  h.of_frame (by simp)

theorem PidsHold.boundarySlot (h : PidsHold s) (m : SlotId) : PidsHold (boundarySlot m s) := by
  have flip : ∀ {u}, PidsHold u → PidsHold (flipWords m u) := by
    intro u hu
    unfold flipWords
    split
    · split
      · exact hu.of_frame (by simp [draw])
      · exact hu
    · exact hu
  have start : ∀ {u} c, PidsHold u → PidsHold (startRollover m c u) := by
    intro u c hu
    unfold startRollover
    split
    · exact hu
    · exact hu.of_frame (by simp [draw])
  have switch : ∀ r forced, PidsHold (switchSlot m r forced s) := fun r forced => (h.setRecord m _).offer _
  unfold Machine.boundarySlot
  split
  · split
    · exact h
    · split
      · refine flip ?_
        split
        · exact start _ (switch _ _)
        · exact switch _ _
      · refine flip ?_
        split
        · exact start _ (h.setRecord m _)
        · exact h.setRecord m _
  · exact h

end Keeping

end Sys2Proof.Machine

/-! SUPPORT. The PID Map's invariant over the units of commands, the starts and the passing of time, and so over every step
(R5 to R8). -/

namespace Sys2Proof.Machine

section Keeping
variable {s t : State}

/-! ## Units (R161) -/

theorem PidsHold.itemUnit {i : Instr} {f : State → CodeValue × State} (h : PidsHold s) (hf : PidsHold (f s).2) :
    PidsHold (itemUnit i f s) := by
  unfold Machine.itemUnit
  split
  · exact h
  · split <;> exact hf.of_frame (by simp)

theorem PidsHold.wholeUnit {i : Instr} {f : State → WholeOutcome × State} (h : PidsHold s) (hf : PidsHold (f s).2) :
    PidsHold (wholeUnit i f s) := by
  unfold Machine.wholeUnit
  split
  · exact h
  · split <;> exact hf.of_frame (by simp)

theorem PidsHold.onSlot {slot : Nat} {f : SlotId → State → WholeOutcome × State} (h : PidsHold s)
    (hf : ∀ m, PidsHold (f m s).2) : PidsHold (onSlot slot f s).2 := by
  unfold Machine.onSlot
  split
  · exact h
  · exact hf _

theorem PidsHold.withRow {seat : Nat} {f : RowImage → State → CodeValue × State} (h : PidsHold s)
    (hf : ∀ r t, PidsHold t → PidsHold (f r t).2) : PidsHold (withRow seat f s).2 := by
  have read := h.readRow (seat / 32)
  unfold Machine.withRow
  split
  · exact h
  · dsimp only
    split
    · exact read
    · split
      · exact hf _ _ read
      · exact read

theorem PidsHold.withRecord {seat : Nat} {f : RecordImage → State → CodeValue × State} (h : PidsHold s)
    (hf : ∀ r t, PidsHold t → PidsHold (f r t).2) : PidsHold (withRecord seat f s).2 := by
  have read := h.readRecord seat
  unfold Machine.withRecord
  split
  · exact h
  · dsimp only
    split
    · exact read
    · split
      · exact hf _ _ read
      · exact read

theorem PidsHold.withBoth {seat : Nat} {f : RowImage → RecordImage → State → CodeValue × State} (h : PidsHold s)
    (hf : ∀ r q t, PidsHold t → PidsHold (f r q t).2) : PidsHold (withBoth seat f s).2 := by
  have read := (h.readRow (seat / 32)).readRecord seat
  unfold Machine.withBoth
  split
  · exact h
  · dsimp only
    split
    · exact read
    · split
      · exact hf _ _ _ read
      · exact read

/-! ## Match Table commands (R7, R31 to R44) -/

/-- A commit into an EMPTY slot makes the staged record the live one and touches no other slot (R34). -/
theorem commitEmpty_slot (m : SlotId) (r : MatchRecord) (n : SlotId) :
    (commitEmpty m r s).slot n = if n = m then
      { s.slot m with state := .scheduled, live := some r.committed, staged := none, endMark := none } else s.slot n := by
  by_cases hn : n = m
  · simp [commitEmpty, enterState_slot, hn]
  · simp only [commitEmpty, enterState_slot, setSlot_slot, hn, if_false]
    rfl

/-- A commit into an EMPTY slot: what it claims was PASS or DROP, so no other slot and no mark loses an identifier (R7, R34). -/
theorem PidsHold.commitEmpty (h : PidsHold s) (m : SlotId) (r : MatchRecord) (accepted : claimAccepted s.siu r = true) :
    PidsHold (commitEmpty m r s) := by
  obtain ⟨owned, control, report, grant, null⟩ := pidsLawful_iff.mp h.lawful
  obtain ⟨hwf, hget⟩ := claim_classOf m r s.siu h.canonical
  simp only [claimAccepted, Bool.and_eq_true, List.all_eq_true, decide_eq_true_eq, claimable, Bool.or_eq_true] at accepted
  obtain ⟨free, nodup⟩ := accepted
  have siu : (Machine.commitEmpty m r s).siu = claim m r s.siu := by simp [Machine.commitEmpty]
  have slots := commitEmpty_slot (s := s) m r
  have keeps : ∀ p, s.siu.classOf p ≠ .pass → s.siu.classOf p ≠ .drop → (claim m r s.siu).classOf p = s.siu.classOf p := by
    intro p hpass hdrop
    have hp : p ∉ r.claims := fun hp => (free p hp).elim hpass hdrop
    simp only [MatchRecord.claims, List.mem_append, List.mem_singleton, not_or] at hp
    simp [hget, hp.1, hp.2]
  rw [MatchRecord.claims, List.nodup_append] at nodup
  refine ⟨siu ▸ hwf, pidsLawful_iff.mpr ⟨fun n ids hi => ?_, ?_⟩⟩
  · rw [siu]
    by_cases hn : n = m
    · subst hn
      obtain ⟨-, rec, hl, hs, hw⟩ := claimed_eq_some.mp hi
      simp only [State.live, slots, if_true, Option.some.injEq] at hl
      subst hl
      refine ⟨fun p hp => ?_, by rw [hget, if_pos (show ids.2 = r.wordPid from hw.symm)]⟩
      have hp' : p ∈ r.servicePids := hs ▸ hp
      rw [hget, if_neg (nodup.2.2 p hp' _ (List.mem_singleton_self _)), if_pos hp']
    · rw [claimed_of_slot (s := s) (by simp [slots, hn])] at hi
      obtain ⟨hs, hw⟩ := owned n ids hi
      exact ⟨fun p hp => by rw [keeps p (by simp [hs p hp]) (by simp [hs p hp]), hs p hp],
        by rw [keeps _ (by simp [hw]) (by simp [hw]), hw]⟩
  · have settings : (Machine.commitEmpty m r s).settings = s.settings := by simp [Machine.commitEmpty]
    rw [siu, settings, keeps _ (by simp [control]) (by simp [control]), keeps _ (by simp [report]) (by simp [report]),
      keeps _ (by simp [grant]) (by simp [grant]), keeps _ (by simp [null]) (by simp [null])]
    exact ⟨control, report, grant, null⟩

/-- A slot whose live record keeps its identifiers, in the same state, claims what it claimed. -/
theorem PidsHold.setSlot_live (h : PidsHold s) (m : SlotId) (x : MatchSlot) (state : x.state = (s.slot m).state)
    {old new : MatchRecord} (hold : s.live m = some old) (hnew : x.live = some new)
    (ids : new.servicePids = old.servicePids ∧ new.wordPid = old.wordPid) : PidsHold (s.setSlot m x) := by
  refine h.of_slot m (by simp) (by simp) (fun n hn => by simp [setSlot_slot, hn]) fun i hi => ?_
  rw [← hi]
  simp [State.claimed, State.live, state, hnew, ids, show (s.slot m).live = some old from hold]

theorem PidsHold.commitLive (h : PidsHold s) (m : SlotId) {old new : MatchRecord} (live : s.live m = some old)
    (fixed : fixedDiffers old new = false) : PidsHold (commitLive m old new s) := by
  simp only [fixedDiffers, Bool.or_eq_false_iff, decide_eq_false_iff_not, Decidable.not_not] at fixed
  obtain ⟨⟨-, service⟩, word⟩ := fixed
  have put := h.setSlot_live m { s.slot m with live := some new.committed, staged := none } rfl live rfl
    ⟨service.symm, word.symm⟩
  unfold Machine.commitLive
  dsimp only
  split
  · exact put.of_frame (by simp)
  · exact put

theorem PidsHold.commitItem (h : PidsHold s) (m : SlotId) : PidsHold (commitItem m s).2 := by
  unfold Machine.commitItem
  split
  · exact h
  split
  · exact h
  split
  · exact h
  unfold commitByState
  split
  case h_1 =>
    split
    · next accepted => exact h.commitEmpty m _ accepted
    · exact h
  case h_2 | h_3 =>
    split
    · next live =>
      split
      · exact h
      · next fixed => exact h.commitLive m live (by simpa using fixed)
    · exact h
  all_goals exact h

theorem PidsHold.defineMatch (h : PidsHold s) (slot : Nat) (img : MatchImage) : PidsHold (defineMatch slot img s).2 := by
  unfold Machine.defineMatch
  split
  · exact h
  split
  · exact h
  · next m _ _ _ =>
    refine h.of_slot m rfl rfl (fun n hn => by simp [stage, setSlot_slot, hn]) fun ids hi => ?_
    simpa [State.claimed, State.live, stage] using hi

theorem PidsHold.whistle (h : PidsHold s) (m : SlotId) : PidsHold (whistle m s).2 := by
  unfold Machine.whistle
  split
  · split
    · next hs => exact h.enterEnded m _ .whistle (by rcases hs with hs | hs <;> rw [hs] <;> rfl)
    · exact h
  · exact h

/-- The states from which ABANDON MATCH is taken claim their identifiers. -/
theorem claimed_of_beforeEnd {x : SlotState} (h : x.beforeEnd = true) : x.claimed = true := by
  cases x
  all_goals first | rfl | contradiction

theorem PidsHold.abandon (h : PidsHold s) (m : SlotId) : PidsHold (abandon m s).2 := by
  unfold Machine.abandon
  split
  · next hs =>
    have unmarked : PidsHold (s.setSlot m { s.slot m with endMark := none }) :=
      h.of_slot m rfl rfl (fun n hn => by simp [setSlot_slot, hn]) fun ids hi => by
        simpa [State.claimed, State.live] using hi
    have entered := unmarked.enterState m .abandoned .abandon fun _ => by simpa using claimed_of_beforeEnd hs
    dsimp only
    split <;> exact entered.of_frame (by simp)
  · exact h

theorem PidsHold.clearTheSlot (h : PidsHold s) (m : SlotId) : PidsHold (clearTheSlot m s).2 := by
  unfold Machine.clearTheSlot
  split
  · exact (h.enterState m .wiping .clear fun hd => by simp [SlotState.claimed] at hd).of_frame (by simp)
  · exact h

theorem PidsHold.revoke (h : PidsHold s) (m : SlotId) : PidsHold (revoke m s) := h.of_frame (by simp)

theorem PidsHold.blackoutChange (h : PidsHold s) (op : Nat) (l : List (BitVec 8)) (m : SlotId) {rec : MatchRecord}
    (live : s.live m = some rec) : PidsHold (blackoutChange op l m rec s).2 := by
  have put : ∀ set, PidsHold (setBlackoutOf m rec set s) := fun set => h.setSlot_live m _ rfl live rfl ⟨rfl, rfl⟩
  have noticed : ∀ (c : Prop) [Decidable c] (set : BitVec 256),
      PidsHold (if c then Machine.revoke m (setBlackoutOf m rec set s) else setBlackoutOf m rec set s) := by
    intro c _ set
    split
    · exact (put set).revoke m
    · exact put set
  exact noticed _ _

theorem PidsHold.setBlackout (h : PidsHold s) (slot op : Nat) (l : List (BitVec 8)) : PidsHold (setBlackout slot op l s).2 := by
  unfold Machine.setBlackout
  refine h.onSlot fun m => ?_
  split
  · exact h
  split
  · next live =>
    split
    · exact h.blackoutChange op l m live
    · exact h
  · exact h

theorem PidsHold.force (h : PidsHold s) (m : SlotId) : PidsHold (force m s).2 := by
  unfold Machine.force
  split
  · split
    · exact h.setRecord m _
    · exact h
  · exact h

/-! ## Seat items (R77 to R95) -/

theorem PidsHold.writeBoth (h : PidsHold s) (seat : Nat) (r : RowImage) (q : RecordImage) : PidsHold (writeBoth seat r q s) :=
  h.of_same rfl rfl rfl

theorem PidsHold.purchaseItem (h : PidsHold s) (seat slot mode : Nat) : PidsHold (purchaseItem seat slot mode s).2 := by
  unfold Machine.purchaseItem
  split
  · exact h
  split
  · exact h
  refine h.withBoth fun r q t ht => ?_
  unfold purchaseChecks
  split
  · exact ht
  · exact ht
  split
  · exact ht
  split
  · exact ht
  split
  · exact ht
  split
  · exact ht
  unfold buySeat
  split
  · exact ht
  · exact ht.of_same rfl rfl rfl

theorem PidsHold.refundItem (h : PidsHold s) (seat slot : Nat) : PidsHold (refundItem seat slot s).2 := by
  unfold Machine.refundItem
  split
  · exact h
  refine h.withBoth fun r q t ht => ?_
  unfold refundChecks
  split
  · exact ht
  split
  · exact ht
  · exact (ht.writeBoth _ _ _).revoke _

theorem PidsHold.withdrawItem (h : PidsHold s) (seat slot : Nat) : PidsHold (withdrawItem seat slot s).2 := by
  unfold Machine.withdrawItem
  split
  · exact h
  refine h.withBoth fun r q t ht => ?_
  unfold withdrawChecks
  split
  · exact ht
  split
  · exact ht
  · exact (ht.writeBoth _ _ _).revoke _

theorem PidsHold.suspendChecks (h : PidsHold s) (seat : Nat) (r : RowImage) : PidsHold (suspendChecks seat r s).2 := by
  unfold Machine.suspendChecks
  split
  · exact h
  · exact h.of_frame (by simp [plain, coded])

theorem PidsHold.resumeChecks (h : PidsHold s) (seat : Nat) (r : RowImage) : PidsHold (resumeChecks seat r s).2 := by
  unfold Machine.resumeChecks
  split
  · exact h
  · exact h.of_frame (by simp [plain, coded])

theorem PidsHold.regionNotice (h : PidsHold s) (seat : Nat) (r : RowImage) (g : BitVec 8) (m : SlotId) :
    PidsHold (regionNotice seat r g m s) := by
  unfold Machine.regionNotice
  split
  · exact h
  split
  · split
    · exact h.revoke m
    · exact h.of_frame (by simp)
    · exact h
    · exact h
  · exact h

theorem PidsHold.regionChecks (h : PidsHold s) (seat : Nat) (g : BitVec 8) (r : RowImage) :
    PidsHold (regionChecks seat g r s).2 := by
  have written : PidsHold (writeRow (seat / 32) (r.setRegion (memberOf seat) g) s) := h.of_frame (by simp)
  have noticed := written.foldl (fun _ m ht => ht.regionNotice seat r g m) slotList
  unfold Machine.regionChecks
  split
  · exact h
  · simpa only [plain, coded] using noticed

theorem PidsHold.topUpChecks (h : PidsHold s) (seat amount : Nat) (q : RecordImage) :
    PidsHold (topUpChecks seat amount q s).2 := by
  unfold Machine.topUpChecks coded
  dsimp only
  split
  · exact h
  · exact h.of_frame (by simp)

theorem PidsHold.clearMarkChecks (h : PidsHold s) (seat : Nat) (q : RecordImage) : PidsHold (clearMarkChecks seat q s).2 := by
  unfold Machine.clearMarkChecks
  split
  · exact h.of_frame (by simp [plain, coded])
  · exact h

/-! ## Store commands (R54 to R59, R70 to R73) -/

theorem PidsHold.loadNotices (h : PidsHold s) (c : Nat) (old : Option RowImage) (new : RowImage) (m : SlotId) :
    PidsHold (loadNotices c old new m s) := by
  have fresh : ∀ mask : MemberMask, PidsHold (if mask = 0 then s else freshNotice c m s) := by
    intro mask
    split
    · exact h
    · exact h.of_frame (by simp)
  unfold Machine.loadNotices
  split
  · exact h
  · next rec _ =>
    split
    · have given := fresh (rowMask new m rec.blackout)
      dsimp only
      generalize (if rowMask new m rec.blackout = 0 then s else freshNotice c m s) = t at given ⊢
      split
      · exact given.revoke m
      · split
        · exact given
        · exact given.revoke m
    · exact h

theorem PidsHold.loadCohortRow (h : PidsHold s) (c : Nat) (row : RowImage) : PidsHold (loadCohortRow c row s).2 := by
  have written : PidsHold (curePoison .row c (writeRow c row s)) := h.of_frame (by simp)
  have noticed := written.foldl (fun _ m ht => ht.loadNotices c (oldRow c s) row m) slotList
  unfold Machine.loadCohortRow
  split
  · exact h
  · simpa only [loadRow] using noticed

theorem PidsHold.loadRecordItem (h : PidsHold s) (seat : Nat) (q : RecordImage) : PidsHold (loadRecordItem seat q s).2 := by
  unfold Machine.loadRecordItem
  split
  · exact h
  · exact h.of_frame (by simp)

theorem PidsHold.querySeat (h : PidsHold s) (seat : Nat) : PidsHold (querySeat seat s).2 := by
  unfold Machine.querySeat
  split
  · exact h
  split
  · exact h
  · exact (h.readRow _).readRecord _

theorem PidsHold.addHouse (h : PidsHold s) (seat : Nat) : PidsHold (addHouse seat s).2 := by
  unfold Machine.addHouse
  split
  · exact h
  split
  · exact h
  split
  · exact h
  · exact h.of_frame (by simp [setHouse])

theorem PidsHold.removeHouse (h : PidsHold s) (seat : Nat) : PidsHold (removeHouse seat s).2 := by
  unfold Machine.removeHouse
  split
  · exact h
  split
  · exact h.of_frame (by simp [setHouse])
  · exact h

/-! ## Identifiers and settings (R6, R8, R163) -/

theorem PidsHold.pidItem (h : PidsHold s) (pid cls : Nat) : PidsHold (pidItem pid cls s).2 := by
  obtain ⟨owned, control, report, grant, null⟩ := pidsLawful_iff.mp h.lawful
  have put : ∀ c, s.siu.classOf pid = .pass ∨ s.siu.classOf pid = .drop → PidsHold (setPid pid c s) := by
    intro c free
    have keeps : ∀ p, s.siu.classOf p ≠ .pass → s.siu.classOf p ≠ .drop →
        (setPid pid c s).siu.classOf p = s.siu.classOf p := by
      intro p hpass hdrop
      refine (classOf_setClass h.canonical).trans (if_neg ?_)
      rintro rfl
      exact free.elim hpass hdrop
    have settings : (setPid pid c s).settings = s.settings := rfl
    refine ⟨setClass_pidMapWf h.canonical, pidsLawful_iff.mpr ⟨fun n ids hi => ?_, ?_⟩⟩
    · obtain ⟨hs, hw⟩ := owned n ids hi
      exact ⟨fun p hp => by rw [keeps p (by simp [hs p hp]) (by simp [hs p hp]), hs p hp],
        by rw [keeps _ (by simp [hw]) (by simp [hw]), hw]⟩
    · rw [settings, keeps _ (by simp [control]) (by simp [control]), keeps _ (by simp [report]) (by simp [report]),
        keeps _ (by simp [grant]) (by simp [grant]), keeps _ (by simp [null]) (by simp [null])]
      exact ⟨control, report, grant, null⟩
  unfold Machine.pidItem
  split
  · exact h
  split
  · exact h
  split
  · next e => exact put _ (.inl e)
  · next e => exact put _ (.inr e)
  all_goals exact h

/-- New settings whose marks are accepted: their identifiers are distinct and were marked, PASS or DROP, so no claim is lost
(R8). -/
theorem PidsHold.moveMarks (h : PidsHold s) (new : Settings) (accepted : marksAccepted s.siu s.settings new = true) :
    PidsHold { s with settings := new, siu := moveMarks s.settings new s.siu } := by
  obtain ⟨owned, control, report, grant, null⟩ := pidsLawful_iff.mp h.lawful
  obtain ⟨hwf, hget⟩ := moveMarks_classOf s.settings new s.siu h.canonical
  simp only [marksAccepted, Bool.and_eq_true, decide_eq_true_eq, List.all_eq_true, Bool.or_eq_true] at accepted
  obtain ⟨nodup, free⟩ := accepted
  have old : ∀ p ∈ s.settings.marks,
      s.siu.classOf p = .control ∨ s.siu.classOf p = .ownedReport ∨ s.siu.classOf p = .ownedGrant := by
    intro p hp
    simp only [Settings.marks, List.mem_cons, List.not_mem_nil, or_false] at hp
    rcases hp with rfl | rfl | rfl
    · exact .inl control
    · exact .inr (.inl report)
    · exact .inr (.inr grant)
  have keeps : ∀ p, p ∉ s.settings.marks → s.siu.classOf p ≠ .pass → s.siu.classOf p ≠ .drop →
      (Machine.moveMarks s.settings new s.siu).classOf p = s.siu.classOf p := by
    intro p hp hpass hdrop
    have hnew : p ∉ new.marks := fun hn => by
      rcases free p hn with (hm | hm) | hm
      · exact hp hm
      · exact hpass hm
      · exact hdrop hm
    simp only [Settings.marks, List.mem_cons, List.not_mem_nil, or_false, not_or] at hnew
    simp [hget, hp, hnew]
  have unmarked : ∀ p, s.siu.classOf p ≠ .control → s.siu.classOf p ≠ .ownedReport → s.siu.classOf p ≠ .ownedGrant →
      p ∉ s.settings.marks := fun p h1 h2 h3 hp => (old p hp).elim h1 fun hp => hp.elim h2 h3
  refine ⟨hwf, pidsLawful_iff.mpr ⟨fun n ids hi => ?_, ?_⟩⟩
  · obtain ⟨hs, hw⟩ := owned n ids hi
    refine ⟨fun p hp => ?_, ?_⟩
    · have hc := hs p hp
      exact (keeps p (unmarked p (by simp [hc]) (by simp [hc]) (by simp [hc])) (by simp [hc]) (by simp [hc])).trans hc
    · exact (keeps _ (unmarked _ (by simp [hw]) (by simp [hw]) (by simp [hw])) (by simp [hw]) (by simp [hw])).trans hw
  · have hnull := keeps 0x1FFF (unmarked _ (by simp [null]) (by simp [null]) (by simp [null])) (by simp [null]) (by simp [null])
    simp only [Settings.marks, List.nodup_cons, List.mem_cons, List.not_mem_nil, or_false, not_or, not_false_eq_true,
      List.nodup_nil, and_true] at nodup
    obtain ⟨⟨controlReport, controlGrant⟩, reportGrant⟩ := nodup
    refine ⟨(hget _).trans ?_, (hget _).trans ?_, (hget _).trans ?_, hnull.trans null⟩
    · rw [if_neg fun hg => controlGrant hg.2, if_neg fun hr => controlReport hr.2]
      by_cases hc : new.controlPid = s.settings.controlPid
      · rw [if_neg fun hm => hm.1 hc, if_neg fun hl => hl.2 (by simp [Settings.marks]), hc]
        exact control
      · exact if_pos ⟨hc, rfl⟩
    · rw [if_neg fun hg => reportGrant hg.2]
      by_cases hr : new.reportPid = s.settings.reportPid
      · rw [if_neg fun hm => hm.1 hr, if_neg fun hm => controlReport hm.2.symm,
          if_neg fun hl => hl.2 (by simp [Settings.marks]), hr]
        exact report
      · exact if_pos ⟨hr, rfl⟩
    · by_cases hg : new.grantPid = s.settings.grantPid
      · rw [if_neg fun hm => hm.1 hg, if_neg fun hm => reportGrant hm.2.symm, if_neg fun hm => controlGrant hm.2.symm,
          if_neg fun hl => hl.2 (by simp [Settings.marks]), hg]
        exact grant
      · exact if_pos ⟨hg, rfl⟩

end Keeping

end Sys2Proof.Machine

/-! SUPPORT. The PID Map's invariant over settings, starts and the passing of time, and so over every step (R5 to R8). -/

namespace Sys2Proof.Machine

section Keeping
variable {s t : State}

/-! ## New settings (R11, R23, R125, R148, R151, R163) -/

theorem holdoverLimitReached_frame (s : State) :
    (holdoverLimitReached s).siu = s.siu ∧ (holdoverLimitReached s).mtb = s.mtb ∧ (holdoverLimitReached s).ina = s.ina ∧
    (holdoverLimitReached s).settings = s.settings ∧ (holdoverLimitReached s).tbu.tick = s.tbu.tick := by
  unfold holdoverLimitReached
  split
  · split
    · simp [enterHoldover]
    · simp [dropCandidate]
    · simp
  · simp

theorem holdoverLimitMoved_frame (old : Settings) (s : State) :
    (holdoverLimitMoved old s).siu = s.siu ∧ (holdoverLimitMoved old s).mtb = s.mtb ∧
    (holdoverLimitMoved old s).ina = s.ina ∧ (holdoverLimitMoved old s).settings = s.settings ∧
    (holdoverLimitMoved old s).tbu.tick = s.tbu.tick := by
  unfold holdoverLimitMoved
  split
  · exact holdoverLimitReached_frame s
  · simp

/-- A new Status Interval changes the Insertion Arbiter alone (R148). -/
theorem statusIntervalMoved_eq (old : Settings) (s : State) :
    statusIntervalMoved old s = { s with ina := (statusIntervalMoved old s).ina } := by
  unfold statusIntervalMoved
  split <;> rfl

/-- A new Grant Pace changes the Insertion Arbiter alone (R151). -/
theorem grantPaceMoved_eq (old : Settings) (s : State) :
    grantPaceMoved old s = { s with ina := (grantPaceMoved old s).ina } := by
  unfold grantPaceMoved
  split
  · rfl
  split
  · rfl
  split
  · rfl
  split <;> rfl

/-- A repeat timer's change is one of the Insertion Arbiter alone (R125). -/
theorem wordTimerMoved_eq (m : SlotId) (s : State) : wordTimerMoved m s = { s with ina := (wordTimerMoved m s).ina } := by
  unfold wordTimerMoved
  split
  · split <;> rfl
  · rfl

/-- A new Word Message Interval changes the Insertion Arbiter alone (R125). -/
theorem wordIntervalMoved_eq (old : Settings) (s : State) :
    wordIntervalMoved old s = { s with ina := (wordIntervalMoved old s).ina } := by
  have fold : ∀ (l : List SlotId) (t : State), t = { s with ina := t.ina } →
      l.foldl (fun t m => wordTimerMoved m t) t = { s with ina := (l.foldl (fun t m => wordTimerMoved m t) t).ina } := by
    intro l
    induction l with
    | nil => exact fun t ht => ht
    | cons m l ih =>
      intro t ht
      exact ih _ ((wordTimerMoved_eq m t).trans (by generalize (wordTimerMoved m t).ina = x; rw [ht]))
  unfold wordIntervalMoved
  split
  · exact fold slotList s rfl
  · rfl

/-- A new Fill Rate changes Input Fill's progress alone (R11). -/
theorem fillRateMoved_eq (old : Settings) (s : State) :
    fillRateMoved old s = { s with siu := { s.siu with fill := (fillRateMoved old s).siu.fill } } := by
  unfold fillRateMoved
  split <;> rfl

theorem PidsHold.applySettings (h : PidsHold s) (new : Settings) (accepted : marksAccepted s.siu s.settings new = true) :
    PidsHold (applySettings new s) := by
  have moved := h.moveMarks new accepted
  have filled : PidsHold (fillRateMoved s.settings
      { s with settings := new, siu := Machine.moveMarks s.settings new s.siu }) := by
    rw [fillRateMoved_eq]
    exact moved.of_same rfl rfl rfl
  unfold Machine.applySettings
  dsimp only
  split
  · rw [wordIntervalMoved_eq, grantPaceMoved_eq, statusIntervalMoved_eq]
    exact filled.of_frame (by simp [holdoverLimitMoved_frame])
  · exact filled

theorem PidsHold.changeSettings (h : PidsHold s) (pairs : List (Nat × Nat)) : PidsHold (changeSettings pairs s).2 := by
  unfold Machine.changeSettings
  split
  · exact h
  · dsimp only
    split
    · next accepted => exact h.applySettings _ accepted
    · exact h

theorem PidsHold.changeRootKey (h : PidsHold s) (w : BitVec 256) : PidsHold (changeRootKey w s).2 := by
  unfold Machine.changeRootKey
  dsimp only
  split
  · exact h.of_same rfl rfl rfl
  · exact h

theorem PidsHold.releaseRecord (h : PidsHold s) : PidsHold (releaseRecord s) := h.of_same rfl rfl rfl

theorem PidsHold.clearMarks (h : PidsHold s) : PidsHold (clearMarks s) := h.of_same rfl rfl rfl

/-! ## Starts, hold and supplies (R75, R167, R168) -/

theorem reset_claimed (m : SlotId) : State.reset.claimed m = none := by
  refine claimed_of_unclaimed ?_
  rw [show State.reset.slot m = MatchSlot.reset from perSlot_replicate_get ..]
  rfl

/-- The PID Map of a COLD reset agrees with its settings and its EMPTY slots (R5). -/
theorem pidsHold_reset : PidsHold State.reset :=
  ⟨by decide, pidsLawful_iff.mpr ⟨fun m ids hi => by simp [reset_claimed] at hi, by decide, by decide, by decide, by decide⟩⟩

theorem PidsHold.warmStart (h : PidsHold s) (c : RestartCause) : PidsHold (warmStart c s) := by
  refine h.of_claims rfl rfl fun m ids hi => ?_
  have slot : (Machine.warmStart c s).slot m = { s.slot m with staged := none } := by
    simp [Machine.warmStart, State.slot, MatchSlot.warm]
  simpa [State.claimed, State.live, slot] using hi

theorem pidsHold_coldStart (failed : Bool) (s : State) : PidsHold (coldStart failed s) := by
  unfold coldStart
  dsimp only
  split <;> exact pidsHold_reset.of_same rfl rfl rfl

theorem PidsHold.start (h : PidsHold s) (c : RestartCause) : PidsHold (start c s) := by
  unfold Machine.start
  split
  · exact h.warmStart c
  · exact pidsHold_coldStart _ s

theorem PidsHold.cutShort (h : PidsHold s) (cut : Cut) : PidsHold (cutShort cut s) := by
  unfold Machine.cutShort
  split
  · exact h
  · split
    · exact h.of_same rfl rfl rfl
    · exact h
  · split
    · exact h.of_frame (by simp)
    · exact h

theorem PidsHold.startCommand (h : PidsHold s) (q : QueuedCommand) : PidsHold (startCommand q s) := by
  unfold Machine.startCommand
  split
  · exact h.of_frame (by simp)
  · exact h.of_frame (by simp)
  · exact h.of_same rfl rfl rfl

/-! ## Time (R17) -/

theorem countFill_pidMap (s : State) : (countFill s).siu.pidMap = s.siu.pidMap := by
  unfold countFill
  split <;> rfl

theorem localTick_pidMap (s : State) : (localTick s).siu.pidMap = s.siu.pidMap := by
  unfold localTick countSilence
  dsimp only
  split <;> simp only [countTimers_frame, countPeriod_frame, countHeldPeriod_frame] <;> split <;> rfl

theorem PidsHold.refclk (h : PidsHold s) : PidsHold (refclk s) := by
  refine h.of_same ?_ (by simp) (by simp)
  unfold Machine.refclk
  dsimp only
  split
  · rw [localTick_pidMap, countFill_pidMap]
  · exact countFill_pidMap s

theorem PidsHold.idle (h : PidsHold s) : PidsHold (idle s) := by
  unfold Machine.idle
  split
  · exact h.refclk.of_same rfl rfl rfl
  · split
    · exact h.refclk
    · exact h

/-! ## Rows -/

/-- Whatever state a row answers, the invariant holds of it. -/
def answersPids (o : Host.Outcome State Fault Refusal) : Prop := ∀ t, o = .next t → PidsHold t

theorem answersPids_next (h : PidsHold t) : answersPids (.next t) := by
  rintro u ⟨⟩
  exact h

/-- A row that does nothing where its condition does not hold. -/
theorem PidsHold.guarded {c : Prop} [Decidable c] (h : PidsHold s) (ht : PidsHold t) :
    answersPids (.next (if c then t else s)) := by
  split
  · exact answersPids_next ht
  · exact answersPids_next h

theorem PidsHold.execSyncCandidate (h : PidsHold s) (b : BitVec 8) : answersPids (execSyncCandidate b s) :=
  have heard : PidsHold (heard s) := h.of_same rfl rfl rfl
  h.guarded (heard.lockByte b)

theorem PidsHold.execPacketTaken (h : PidsHold s) (p : List (BitVec 8)) : answersPids (execPacketTaken p s) := by
  have taken : PidsHold (heard { s with siu := { s.siu with badSyncs := 0 } }) := h.of_same rfl rfl rfl
  have heard : PidsHold (heard s) := h.of_same rfl rfl rfl
  have bad : PidsHold (badSync (Machine.heard s)) := by
    unfold badSync
    split
    · exact heard.of_same rfl rfl rfl
    · exact heard.inputLoss _
  refine h.guarded ?_
  split
  · exact taken.handlePacket p
  · exact bad

theorem PidsHold.execFreeSlot (h : PidsHold s) : answersPids (execFreeSlot s) := by
  refine h.guarded ?_
  split
  · next x hx =>
    have taken : PidsHold x.2 := by rw [takeFree_out hx]; exact h.of_same rfl rfl rfl
    exact taken.fillFree x.1
  · exact h

theorem PidsHold.execGrantMessageEmitted (h : PidsHold s) : answersPids (execGrantMessageEmitted s) := by
  refine answersPids_next ?_
  split
  · split
    · exact (h.grantEmitted _).completeSending
    · exact h
  · exact h

theorem PidsHold.execReportPacketEmitted (h : PidsHold s) : answersPids (execReportPacketEmitted s) := by
  have left : ∀ ns, PidsHold (resultsLeft ns s) := fun ns => h.of_same rfl rfl rfl
  refine answersPids_next ?_
  split
  · split
    · split
      · exact (left _).completeSending
      · exact h
    all_goals exact h
  · exact h

theorem PidsHold.execCryptoPeriodBoundary (h : PidsHold s) : answersPids (execCryptoPeriodBoundary s) := by
  have begun : PidsHold (beginPeriod s) := h.of_same rfl rfl rfl
  exact h.guarded (begun.foldl (fun _ m ht => ht.boundarySlot m) slotList)

theorem PidsHold.execSweepAgeIncrement (h : PidsHold s) (m : SlotId) : answersPids (execSweepAgeIncrement m s) := by
  refine answersPids_next ?_
  split
  · split
    · exact h.of_frame (by simp)
    · exact h
  · exact h

theorem PidsHold.execWordMessageTimerExpiry (h : PidsHold s) (m : SlotId) :
    answersPids (execWordMessageTimerExpiry m s) := by
  refine answersPids_next ?_
  split
  · split
    · exact h.setWordTimer m _
    · exact h
  · exact h

theorem PidsHold.execPaceTimerExpiry (h : PidsHold s) : answersPids (execPaceTimerExpiry s) := by
  refine answersPids_next ?_
  split
  · split
    · exact h.of_same rfl rfl rfl
    · exact h
  · exact h

theorem PidsHold.execWalkStart (h : PidsHold s) : answersPids (execWalkStart s) := by
  refine answersPids_next ?_
  split
  · split
    · exact h.of_same rfl rfl rfl
    · exact h
  all_goals exact h

theorem PidsHold.execClearWalkStep (h : PidsHold s) : answersPids (execClearWalkStep s) := by
  refine answersPids_next ?_
  split
  · split
    · exact h.of_frame (by simp)
    · exact h
  · exact h

theorem PidsHold.execVerifyWalkStep (h : PidsHold s) : answersPids (execVerifyWalkStep s) := by
  refine answersPids_next ?_
  split
  · split
    · exact h.verifyStep _
    · exact h
  · exact h

theorem PidsHold.execWipeWalkStep (h : PidsHold s) : answersPids (execWipeWalkStep s) := by
  refine answersPids_next ?_
  split
  · split
    · split
      · exact h.wipeStep _ _
      · exact h
    all_goals exact h
  · exact h

/-- Every walk's slot stands in the walk's state, as `State.slotsLawful` has it (R40, R42, R66). -/
def State.walksAgree (s : State) : Prop := ∀ p ∈ s.walkSlots, (s.slot p.2).state = if p.1 then .abandoned else .wiping

/-- The slot of the REFUND walk under way is ABANDONED (R40, R66). -/
theorem refundWalk_abandoned (hs : s.walksAgree) {w : Walk} {m : SlotId} (hw : s.sst.walk = some w)
    (hm : w.kind = .refund m) : (s.slot m).state = .abandoned := by
  have hp : (true, m) ∈ s.walkSlots := by simp [State.walkSlots, hw, hm]
  simpa using hs (true, m) hp

theorem PidsHold.execRefundWalkStep (h : PidsHold s) (hs : s.walksAgree) : answersPids (execRefundWalkStep s) := by
  refine answersPids_next ?_
  split
  · next hw =>
    split
    · next hm =>
      split
      · next hc =>
        simp only [Bool.and_eq_true, decide_eq_true_eq] at hc
        exact h.refundStep _ _ hc.2 (refundWalk_abandoned hs hw hm)
      · exact h
    all_goals exact h
  · exact h

theorem PidsHold.execCommandStart (h : PidsHold s) : answersPids (execCommandStart s) := by
  have reserved : ∀ rest, PidsHold (reserve rest s) := fun rest => h.of_same rfl rfl rfl
  refine answersPids_next ?_
  split
  · split
    · exact (reserved _).startCommand _
    · exact h
  · exact h

theorem PidsHold.execRestart (h : PidsHold s) : answersPids (execRestart s) := by
  refine answersPids_next ?_
  split
  · split
    · exact h.of_frame (by simp [takeRestart])
    · exact h.of_frame (by simp)
  · exact h

theorem PidsHold.execVbakLoss (h : PidsHold s) (spoiled : Bool) : answersPids (execVbakLoss spoiled s) := by
  refine answersPids_next ?_
  dsimp only
  split
  · exact h.of_frame (by simp [spoilCheck])
  · exact h.of_same rfl rfl rfl

theorem PidsHold.execMainSupplyLoss (h : PidsHold s) (spoiled : Bool) : answersPids (execMainSupplyLoss spoiled s) := by
  have stopped : PidsHold (spoilCheck (spoiled && s.streaming)
      { s with power := { s.power with phase := .unpowered }, out := { s.out with sending := none } }) := h.of_same rfl rfl rfl
  refine answersPids_next ?_
  split
  · exact h
  · dsimp only
    split
    · exact stopped
    · exact stopped.of_frame (by simp)

/-- Every row keeps the invariant (R5 to R8). -/
theorem PidsHold.exec (h : PidsHold s) (hs : s.walksAgree) (i : Instr) : answersPids (exec i s) := by
  cases i with
  | syncCandidate b => exact h.execSyncCandidate b
  | checkSilenceTimeout => exact h.guarded (h.of_same rfl rfl rfl)
  | lockedSilenceTimeout => exact h.guarded (h.inputLoss _)
  | packetTaken p => exact h.execPacketTaken p
  | fillSlot => exact h.guarded (h.of_same rfl rfl rfl)
  | freeSlot => exact h.execFreeSlot
  | grantMessageEmitted => exact h.execGrantMessageEmitted
  | reportPacketEmitted => exact h.execReportPacketEmitted
  | sweepStep => exact h.guarded h.builderStep
  | streamTimeAdvance => exact h.guarded h.evaluateAll
  | holdoverEntered => exact h.guarded (h.of_frame (by simp))
  | candidateTimeout => exact h.guarded (h.of_frame (by simp))
  | cryptoPeriodBoundary => exact h.execCryptoPeriodBoundary
  | sweepAgeIncrement m => exact h.execSweepAgeIncrement m
  | wordMessageTimerExpiry m => exact h.execWordMessageTimerExpiry m
  | statusTimerExpiry => exact h.guarded (h.of_same rfl rfl rfl)
  | paceTimerExpiry => exact h.execPaceTimerExpiry
  | walkStart => exact h.execWalkStart
  | clearWalkStep => exact h.execClearWalkStep
  | verifyWalkStep => exact h.execVerifyWalkStep
  | wipeWalkStep => exact h.execWipeWalkStep
  | refundWalkStep => exact h.execRefundWalkStep hs
  | commandStart => exact h.execCommandStart
  | defineMatch slot img => exact answersPids_next (h.wholeUnit (h.defineMatch slot img))
  | commitSchedule m => exact answersPids_next (h.itemUnit (h.commitItem m))
  | readMatch slot =>
    refine answersPids_next (h.wholeUnit ?_)
    unfold readMatch
    split <;> exact h
  | finalWhistle slot => exact answersPids_next (h.wholeUnit (h.onSlot h.whistle))
  | abandonMatch slot => exact answersPids_next (h.wholeUnit (h.onSlot h.abandon))
  | clearSlot slot => exact answersPids_next (h.wholeUnit (h.onSlot h.clearTheSlot))
  | setBlackout slot op l => exact answersPids_next (h.wholeUnit (h.setBlackout slot op l))
  | forceRollover slot => exact answersPids_next (h.wholeUnit (h.onSlot h.force))
  | purchase seat slot mode => exact answersPids_next (h.itemUnit (h.purchaseItem seat slot mode))
  | refund seat slot => exact answersPids_next (h.itemUnit (h.refundItem seat slot))
  | withdraw seat slot => exact answersPids_next (h.itemUnit (h.withdrawItem seat slot))
  | suspend seat => exact answersPids_next (h.itemUnit (h.withRow fun r _ ht => ht.suspendChecks seat r))
  | resume seat => exact answersPids_next (h.itemUnit (h.withRow fun r _ ht => ht.resumeChecks seat r))
  | setRegion seat g => exact answersPids_next (h.itemUnit (h.withRow fun r _ ht => ht.regionChecks seat g r))
  | topUpCredit seat amount => exact answersPids_next (h.itemUnit (h.withRecord fun q _ ht => ht.topUpChecks seat amount q))
  | clearSeatMarks seat => exact answersPids_next (h.itemUnit (h.withRecord fun q _ ht => ht.clearMarkChecks seat q))
  | loadCohortRow c row => exact answersPids_next (h.wholeUnit (h.loadCohortRow c row))
  | loadSeatRecords seat q => exact answersPids_next (h.itemUnit (h.loadRecordItem seat q))
  | querySeat seat => exact answersPids_next (h.wholeUnit (h.querySeat seat))
  | readPoisonList => exact answersPids_next (h.wholeUnit h)
  | clearStore =>
    refine answersPids_next (h.wholeUnit ?_)
    dsimp only
    exact h.cutAndClear
  | addHouseSeat seat => exact answersPids_next (h.wholeUnit (h.addHouse seat))
  | removeHouseSeat seat => exact answersPids_next (h.wholeUnit (h.removeHouse seat))
  | readHouseList => exact answersPids_next (h.wholeUnit h)
  | setPidClass pid cls => exact answersPids_next (h.itemUnit (h.pidItem pid cls))
  | setSettings pairs => exact answersPids_next (h.wholeUnit (h.changeSettings pairs))
  | readSettings => exact answersPids_next (h.wholeUnit h)
  | setRootKey w => exact answersPids_next (h.wholeUnit (h.changeRootKey w))
  | releaseFault => exact answersPids_next (h.wholeUnit h.releaseRecord)
  | clearStatusMarks => exact answersPids_next (h.wholeUnit h.clearMarks)
  | restart => exact h.execRestart
  | holdEntry => exact h.guarded (h.of_frame (by simp))
  | retainedCheckConfirmed level => exact h.guarded (h.of_same rfl rfl rfl)
  | restartSelfReset => exact h.guarded (h.start _)
  | resetn cut => exact answersPids_next ((h.cutShort cut).start _)
  | vbakLoss spoiled => exact h.execVbakLoss spoiled
  | mainSupplyLoss spoiled => exact h.execMainSupplyLoss spoiled

/-- A step keeps the invariant: a row on the queue's rest, or a period of time. -/
theorem PidsHold.step (h : PidsHold s) (hs : s.walksAgree) (ht : step s = .next t) : PidsHold t := by
  unfold Machine.step at ht
  split at ht
  · next c rest _ =>
    have behind : PidsHold { s with pending := rest } := h.of_same rfl rfl rfl
    exact behind.exec hs c t ht
  · cases ht
    exact h.idle

end Keeping

/-- Settles O55. -/
theorem pidsStayLawful : Obligations.PidsStayLawful := fun _ _ memory slots pids next =>
  (PidsHold.step ⟨pidMapWf memory, pids⟩ slots.walks next).lawful

end Sys2Proof.Machine

/-! SUPPORT. The starts of the part: the state after reset is lawful, and what a WARM and a COLD start keep and clear (R16, R29,
R49, R75, R120, R128, R145, R155, R168, R169, R177, R178). -/

namespace Sys2Proof.Machine

/-! ## The state after reset -/

@[simp] theorem reset_slot (m : SlotId) : State.reset.slot m = MatchSlot.reset := perSlot_replicate_get ..

@[simp] theorem reset_epochSlot (m : SlotId) : State.reset.epochSlot m = EpochSlot.reset := perSlot_replicate_get ..

@[simp] theorem reset_record (m : SlotId) : State.reset.record m = none := by simp [State.record, EpochSlot.reset]

@[simp] theorem reset_wordTimer (m : SlotId) : State.reset.wordTimer m = WordTimer.stopped := perSlot_replicate_get ..

/-- The Default column of section 10.6 lies in the ranges of its table. -/
theorem default_lawful : Settings.default.lawful := by constructor <;> decide

theorem reset_memoryLawful : State.reset.memoryLawful where
  settings := default_lawful
  walk := by rintro w ⟨⟩; decide
  memory := by decide

theorem reset_queuesLawful : State.reset.queuesLawful := by constructor <;> decide

theorem reset_slotLawful (m : SlotId) : State.reset.slotLawful m := by
  constructor <;> simp [MatchSlot.reset, WordTimer.stopped, SlotState.words]

theorem reset_slotsLawful : State.reset.slotsLawful where
  slots := reset_slotLawful
  walks := by decide
  once := by decide

/-- Settles O58. -/
theorem resetIsLawful : Obligations.ResetIsLawful :=
  ⟨reset_memoryLawful, reset_queuesLawful, reset_slotsLawful, pidsHold_reset.lawful, rfl, rfl, rfl, rfl, rfl, rfl, rfl⟩

/-! ## What a reset cuts short (R64, R167) -/

/-- A RESETN's cut reaches the retained check word and the DRAM alone. -/
theorem cutShort_eq (cut : Cut) (s : State) : cutShort cut s = { s with
    sst := { s.sst with rows := (cutShort cut s).sst.rows, records := (cutShort cut s).sst.records }
    power := { s.power with checkHolds := (cutShort cut s).power.checkHolds }
    frees := (cutShort cut s).frees } := by
  unfold cutShort
  split
  · rfl
  · split <;> rfl
  · split <;> rfl

theorem cutShort_frame (cut : Cut) (s : State) :
    (cutShort cut s).cmu = s.cmu ∧ (cutShort cut s).out = s.out ∧ (cutShort cut s).draws = s.draws ∧
    (cutShort cut s).pending = s.pending ∧ (cutShort cut s).power.vbakLost = s.power.vbakLost := by
  rw [cutShort_eq]
  exact ⟨rfl, rfl, rfl, rfl, rfl⟩

/-- The retained check word fails after a cut where it failed before or a retained write was cut (R75, R167). -/
theorem cutShort_checkHolds (cut : Cut) (s : State) : (cutShort cut s).power.checkHolds =
    (s.power.checkHolds && !(decide (cut = .retainedWrite) && s.streaming)) := by
  cases cut with
  | nothing => simp [cutShort]
  | retainedWrite => by_cases h : s.streaming = true <;> simp [cutShort, h, spoilCheck]
  | storeWrite => by_cases h : s.taking = true <;> simp [cutShort, h]

/-- The DRAM keeps its content where no write to it was cut (R64). -/
theorem cutShort_store {cut : Cut} {s : State} (h : cut ≠ .storeWrite ∨ s.taking = false) :
    (cutShort cut s).sst.rows = s.sst.rows ∧ (cutShort cut s).sst.records = s.sst.records ∧
    (cutShort cut s).frees = s.frees := by
  cases cut with
  | nothing => exact ⟨rfl, rfl, rfl⟩
  | retainedWrite => by_cases hs : s.streaming = true <;> simp [cutShort, hs, spoilCheck]
  | storeWrite => simp_all [cutShort]

/-- RESETN and RESTART's own reset start the part from what the reset's cut leaves (R75, R168). -/
theorem exec_reset {i : Instr} {cut : Cut} {cause : RestartCause} {s : State}
    (h : (i = .resetn cut ∧ cause = .resetn) ∨ (i = .restartSelfReset ∧ cause = .command ∧ cut = .nothing ∧
      s.power.phase = .held ∧ s.power.restartHold = true ∧ s.power.pwarnAtStop = false)) :
    exec i s = .next (start cause (cutShort cut s)) := by
  rcases h with ⟨rfl, rfl⟩ | ⟨rfl, rfl, rfl, phase, hold, pwarn⟩
  · rfl
  · simp [exec, execRestartSelfReset, phase, hold, pwarn, cutShort]

/-! ## WARM (R75, R168) -/

theorem warmStart_slot (c : RestartCause) (s : State) (m : SlotId) :
    (warmStart c s).slot m = { s.slot m with staged := none } := by
  simp [warmStart, State.slot, MatchSlot.warm]

theorem warmStart_epochSlot (c : RestartCause) (s : State) (m : SlotId) :
    (warmStart c s).epochSlot m = (s.epochSlot m).warm s.settings.rolloverPasses := by
  simp [warmStart, State.epochSlot]

theorem warmStart_record (c : RestartCause) (s : State) (m : SlotId) :
    (warmStart c s).record m = (s.record m).map fun r => r.warm s.settings.rolloverPasses := by
  simp [State.record, warmStart_epochSlot, EpochSlot.warm]

theorem warmStart_wordTimer (c : RestartCause) (s : State) (m : SlotId) :
    (warmStart c s).wordTimer m = { due := none, timer := if (s.slot m).state.words then some 0 else none } := by
  have h : (warmStart c s).wordTimer m = WordTimer.warm (s.slot m) := by simp [warmStart, State.wordTimer, State.slot]
  rw [h, WordTimer.warm]
  split <;> rfl

/-- A SWEEPING record owes Rollover Passes full passes again, any other is as it was (R128). -/
theorem EpochRecord.warm_eq (r : EpochRecord) (passes : Nat) :
    r.warm passes = { r with passesLeft := if r.rollover = .sweeping then passes else r.passesLeft } := by
  rcases r with ⟨_, _, _, _ | _ | _ | _, _⟩ <;> rfl

/-- Settles O50. -/
theorem warmStartKeepsRetained : Obligations.WarmStartKeepsRetained := by
  intro s i cut cause holds vbak reset
  have checks : (cutShort cut s).power.checkHolds = true := by
    rw [cutShort_checkHolds, holds]
    rcases reset with ⟨-, -, quiet⟩ | ⟨-, -, rfl, -⟩
    · by_cases hc : cut = .retainedWrite <;> simp [hc, quiet]
    · simp
  have warm : start cause (cutShort cut s) = warmStart cause (cutShort cut s) := by
    obtain ⟨-, -, -, -, kept⟩ := cutShort_frame cut s
    simp [start, checks, kept, vbak]
  refine ⟨warmStart cause (cutShort cut s), ?_, ?_⟩
  · rw [← warm]
    exact exec_reset (reset.imp (fun h => ⟨h.1, h.2.1⟩) id)
  · have store := @cutShort_store cut s
    rw [cutShort_eq] at store ⊢
    generalize (cutShort cut s).sst.rows = rows, (cutShort cut s).sst.records = records,
      (cutShort cut s).power.checkHolds = checkHolds, (cutShort cut s).frees = frees at store ⊢
    refine ⟨rfl, rfl, fun m => warmStart_slot .., fun m => ?_, fun m => ?_, fun m => warmStart_wordTimer .., rfl,
      fun h => ⟨(store h).1, (store h).2.1⟩, rfl, rfl, rfl, rfl, rfl, rfl, rfl⟩
    · rw [warmStart_record]
      exact ⟨fun h => congrArg _ h, fun r h => (congrArg _ h).trans (congrArg some (r.warm_eq _))⟩
    · rw [warmStart_epochSlot]; rfl

/-! ## COLD (R75, R178) -/

/-- What a COLD start leaves: the reset state but for what no reset reaches, with the first fault where the check failed. -/
theorem coldStart_eq (failed : Bool) (s : State) : coldStart failed s = { State.reset with
    sst := { Sst.reset with rows := (coldStart failed s).sst.rows, records := (coldStart failed s).sst.records }
    cmu := { Cmu.reset with unitKey := s.cmu.unitKey }
    out := { positions := [], sending := none, sent := s.out.sent }
    rpu := (coldStart failed s).rpu, draws := s.draws, frees := (coldStart failed s).frees, pending := s.pending } := by
  cases failed <;> rfl

theorem coldStart_store (failed : Bool) (s : State) : (coldStart failed s).sst.rows = s.sst.rows ∧
    (coldStart failed s).sst.records = s.sst.records ∧ (coldStart failed s).frees = s.frees := by
  cases failed <;> exact ⟨rfl, rfl, rfl⟩

/-- Settles O51. -/
theorem coldStartClears : Obligations.ColdStartClears := by
  intro s i cut reset lost
  obtain ⟨cause, started⟩ : ∃ cause, exec i s = .next (start cause (cutShort cut s)) := by
    rcases reset with rfl | ⟨rfl, rfl, held⟩
    · exact ⟨.resetn, exec_reset (.inl ⟨rfl, rfl⟩)⟩
    · exact ⟨.command, exec_reset (.inr ⟨rfl, rfl, rfl, held⟩)⟩
  have checks := cutShort_checkHolds cut s
  obtain ⟨cmu, out, draws, pending, vbak⟩ := cutShort_frame cut s
  have cold : start cause (cutShort cut s) = coldStart (!(cutShort cut s).power.checkHolds) (cutShort cut s) := by
    unfold start
    rw [if_neg]
    rw [vbak, checks]
    rcases lost with h | h | ⟨rfl, h⟩ <;> simp [h]
  refine ⟨_, started, ?_⟩
  rw [cold]
  refine ⟨?_, fun whole => ?_, fun failed => ?_, fun whole kept => ?_⟩
  · have eq := coldStart_eq (!(cutShort cut s).power.checkHolds) (cutShort cut s)
    rwa [cmu, out, draws, pending] at eq
  · obtain ⟨rows, records, frees⟩ := coldStart_store (!(cutShort cut s).power.checkHolds) (cutShort cut s)
    rw [rows, records, frees]
    exact cutShort_store whole
  · have : (cutShort cut s).power.checkHolds = false := by
      rw [checks]
      rcases failed with h | ⟨rfl, h⟩ <;> simp [h]
    rw [this]
    rfl
  · have : (cutShort cut s).power.checkHolds = true := by
      rw [checks, whole]
      rcases kept with h | h <;> simp [h]
    rw [this]
    rfl

/-! ## Identifier, key and mark commands (R6, R165, R174, R176) -/

/-- Settles O47. -/
theorem identifierKeyAndMarkCommands : Obligations.IdentifierKeyAndMarkCommands := by
  refine ⟨fun pid cls x s takes => ?_, fun x s => ⟨fun w takes => ?_, fun takes => ?_, fun takes => ?_⟩⟩
  · have item : exec (.setPidClass pid cls) s = .next (endItem x (pidItem pid cls s).1 (pidItem pid cls s).2) :=
      congrArg _ (itemUnit_of_takes takes _)
    rw [item]
    refine ⟨fun wide => ?_, fun fits reserved => ?_, fun fits asked free memory => ?_⟩
    · simp [pidItem, wide]
    · have : pidItem pid cls s = (⟨.pidReserved, 0⟩, s) := by
        unfold pidItem
        rw [if_neg (by omega)]
        rcases reserved with h | ⟨notPass, notDrop⟩
        · rw [if_pos h]
        · split
          · rfl
          · split
            · contradiction
            · contradiction
            all_goals rfl
      rw [this]
    · have : pidItem pid cls s = (⟨.done, 0⟩, setPid pid (if cls = 0 then .pass else .drop) s) := by
        unfold pidItem
        rw [if_neg (by omega), if_neg (by omega)]
        rcases free with h | h <;> rw [h]
      rw [this]
      refine ⟨_, rfl, ?_, fun p hp => ?_, rfl⟩
      · exact (classOf_setClass (pidMapWf memory)).trans (if_pos rfl)
      · exact (classOf_setClass (pidMapWf memory)).trans (if_neg hp)
  · refine (congrArg Host.Outcome.next (wholeUnit_of_takes takes _)).trans ?_
    by_cases h : (Config.unwrapKey s.cmu.unitKey w).2 = true ∧ (Config.unwrapKey s.cmu.unitKey w).1 ≠ 0
    · have : changeRootKey w s = (.taken, { s with cmu := { s.cmu with rootKey := (Config.unwrapKey s.cmu.unitKey w).1 } }) :=
        if_pos (by simpa using h)
      rw [this, if_pos h]
    · have : changeRootKey w s = (.refused .badKey, s) := if_neg (by simpa using h)
      rw [this, if_neg h]
  · exact congrArg Host.Outcome.next (wholeUnit_of_takes takes _)
  · exact congrArg Host.Outcome.next (wholeUnit_of_takes takes _)

end Sys2Proof.Machine

/-! SUPPORT. The stream path: the output sequence under what joins it, the lock, the fate of a packet, the Scrambler and clock
references (R1 to R4, R9 to R11, R14, R18, R20 to R22, R28). -/

namespace Sys2Proof.Machine

/-! ## The output sequence (R9) -/

/-- Sending what needs no decision moves packets along the sequence and leaves the sequence as it is. -/
theorem drainList_sequence (l : List OutPosition) (x : Option Sending) (sent : List (List (BitVec 8))) :
    OutPath.sequence { positions := (drainList l x sent).1, sending := (drainList l x sent).2.1
                       sent := (drainList l x sent).2.2 } =
      OutPath.sequence { positions := l, sending := x, sent := sent } := by
  induction l, x, sent using drainList.induct with
  | case1 p rest sent ih => rw [drainList, ih]; simp [OutPath.sequence]
  | case2 p rest y sent quiet ih => rw [drainList, if_pos quiet, ih]; simp [OutPath.sequence]
  | case3 p rest y sent told => rw [drainList, if_neg told]
  | case4 l x sent h1 h2 => rw [drainList.eq_3 _ _ _ h1 h2]

theorem drain_sequence (s : State) : (drain s).out.sequence = s.out.sequence := drainList_sequence ..

/-- What joins the output sequence stands behind everything in it (R9). -/
theorem appendOut_sequence (pos : OutPosition) (s : State) : (appendOut pos s).out.sequence = s.out.sequence ++ [pos] := by
  rw [appendOut, drain_sequence]
  simp [OutPath.sequence]

@[simp] theorem notFill_packet (p : List (BitVec 8)) : OutPosition.notFill (.packet p) = true := rfl

/-- Fill slots withdrawn from the positions are withdrawn from the sequence: what has been sent holds none (R11). -/
theorem sequence_withdraw (o : OutPath) :
    OutPath.sequence { o with positions := o.positions.filter OutPosition.notFill } =
      o.sequence.filter OutPosition.notFill := by
  have sent : (o.sent.map OutPosition.packet).filter OutPosition.notFill = o.sent.map .packet := by
    rw [List.filter_eq_self]
    simp
  cases h : o.sending <;> simp [OutPath.sequence, h, sent, List.filter_cons]

/-! ## Reports offered (R170) -/

/-- What a report does depends on the Report Unit, the Command Unit and the stamp alone. -/
theorem offer_reports_of_stamp {s t : State} (b : ReportBody) (rpu : t.rpu = s.rpu) (cmu : t.cmu = s.cmu)
    (stamp : t.stamp = s.stamp) : (offer b t).rpu = (offer b s).rpu ∧ (offer b t).cmu = (offer b s).cmu := by
  unfold offer
  simp only [rpu, cmu, stamp]
  split
  · exact ⟨rfl, rfl⟩
  split
  · split <;> exact ⟨rfl, rfl⟩
  · exact ⟨rfl, rfl⟩

/-- What a report does depends on the Report Unit, the Command Unit and the Timebase alone. -/
theorem offer_reports_of {s t : State} (b : ReportBody) (rpu : t.rpu = s.rpu) (cmu : t.cmu = s.cmu) (tbu : t.tbu = s.tbu) :
    (offer b t).rpu = (offer b s).rpu ∧ (offer b t).cmu = (offer b s).cmu :=
  offer_reports_of_stamp b rpu cmu (stamp_of_tbu tbu)

theorem offerAll_of {s t : State} (l : List ReportBody) (rpu : t.rpu = s.rpu) (cmu : t.cmu = s.cmu) (tbu : t.tbu = s.tbu) :
    (offerAll l t).rpu = (offerAll l s).rpu ∧ (offerAll l t).cmu = (offerAll l s).cmu := by
  induction l generalizing s t with
  | nil => exact ⟨rpu, cmu⟩
  | cons b l ih =>
    obtain ⟨rpu', cmu'⟩ := offer_reports_of b rpu cmu tbu
    exact ih rpu' cmu' (by simp [tbu])

/-- Which reports stand between two states does not depend on the first one's other blocks. -/
theorem reports_of {l : List ReportBody} {s s' t : State} (h : reports l s' t) (rpu : s'.rpu = s.rpu) (cmu : s'.cmu = s.cmu)
    (tbu : s'.tbu = s.tbu) : reports l s t := by
  obtain ⟨rpu', cmu'⟩ := offerAll_of l rpu cmu tbu
  exact ⟨h.1.trans rpu', h.2.trans cmu'⟩

/-! ## Lock, silence and fill (R1 to R4, R11) -/

/-- A third sync byte in CHECK gains the lock (R1, R3, R11). -/
theorem gainLock_spec (s : State) :
    gainLock s = { s with siu := (gainLock s).siu, out := (gainLock s).out, rpu := (gainLock s).rpu, cmu := (gainLock s).cmu } ∧
    (gainLock s).siu = { s.siu with lock := .locked, syncCount := 3, badSyncs := 0, toNextStart := 0, lossFlag := false } ∧
    (gainLock s).out.sequence = s.out.sequence.filter OutPosition.notFill ∧
    reports (if s.siu.lossFlag then [.inputRegained] else []) s (gainLock s) := by
  unfold gainLock
  dsimp only
  cases s.siu.lossFlag with
  | false =>
    refine ⟨rfl, rfl, ?_, rfl, rfl⟩
    exact (drain_sequence _).trans (sequence_withdraw s.out)
  | true =>
    refine ⟨by apply State.eq_of <;> simp, by simp, ?_, ?_⟩
    · simp only [if_true, offer_frame]
      exact (drain_sequence _).trans (sequence_withdraw s.out)
    · exact offer_reports_of .inputRegained rfl rfl rfl

/-- Settles O4. -/
theorem lockSilenceAndFill : Obligations.LockSilenceAndFill := by
  refine ⟨fun b s streaming => ?_, fun s streaming => ?_, fun s streaming => ?_⟩
  · have row : exec (.syncCandidate b) s = .next (lockByte b (heard s)) := by simp [exec, execSyncCandidate, streaming]
    rw [row]
    refine ⟨fun hunt good => ?_, fun hunt bad => ?_, fun check inside => ?_, fun check start bad => ?_,
      fun check start good few => ?_, fun check start good many => ?_, fun locked => ?_⟩
    · simp [lockByte, heard, hunt, good, expectStart]
    · simp [lockByte, heard, hunt, show b ≠ 0x47#8 from bad]
    · simp [lockByte, heard, check, Nat.not_le.mpr inside]
    · simp [lockByte, heard, check, start, checkStart, show b ≠ 0x47#8 from bad, backToHunt]
    · simp [lockByte, heard, check, start, checkStart, good, Nat.not_le.mpr few, expectStart]
    · have gained : lockByte b (heard s) = gainLock (heard s) := by
        simp [lockByte, heard, check, start, checkStart, good, many]
      obtain ⟨frame, siu, out, reported⟩ := gainLock_spec (heard s)
      rw [gained]
      refine ⟨_, rfl, ?_, siu, out, reports_of reported rfl rfl rfl⟩
      rw [frame]
      rfl
    · simp [lockByte, heard, locked]
  · refine ⟨fun check silent => ?_, fun locked silent => ?_, fun short => ?_⟩
    · simp [exec, execCheckSilenceTimeout, streaming, check, silent, backToHunt]
    · simp [exec, execLockedSilenceTimeout, streaming, locked, silent, inputLoss]
    · simp [exec, execCheckSilenceTimeout, execLockedSilenceTimeout, Nat.not_le.mpr short]
  · refine ⟨fun filling due => ?_, fun early => ?_⟩
    · have : fillDue s = true := by simp [fillDue, State.filling, filling, due]
      simp [exec, execFillSlot, streaming, this]
    · have : fillDue s = false := by
        rcases early with locked | early
        · simp [fillDue, State.filling, locked]
        · simp [fillDue, Nat.not_le.mpr early]
      simp [exec, execFillSlot, this]

/-! ## The fate of a packet (R2, R9, R10) -/

/-- PACKET_TAKEN of a packet with a good sync byte (R2). -/
theorem exec_packetTaken {p : List (BitVec 8)} {s : State} (h : arrives p s) :
    exec (.packetTaken p) s = .next (handlePacket p (synced s)) := by
  obtain ⟨streaming, locked, length, sync⟩ := h
  simp [exec, execPacketTaken, streaming, locked, length, sync, heard, synced]

theorem handlePacket_sound {p : List (BitVec 8)} {s : State} (h : errorBit p = false) :
    handlePacket p s = decideFate p (offerReference p s) := by simp [handlePacket, h]

/-- Without a reference on the Clock PID nothing is handed to the Timebase (R10). -/
theorem offerReference_none {p : List (BitVec 8)} {s : State} (h : noReference p s) : offerReference p s = s := by
  unfold offerReference
  rcases h with h | h
  · rw [h]
  · split
    · simp [h]
    · rfl

theorem exec_packetTaken_plain {p : List (BitVec 8)} {s : State} (h : arrives p s) (sound : errorBit p = false)
    (plain : noReference p s) : exec (.packetTaken p) s = .next (decideFate p (synced s)) := by
  rw [exec_packetTaken h, handlePacket_sound sound, offerReference_none (s := synced s) plain]

theorem decideFate_of {p : List (BitVec 8)} {s : State} {c : PidClass} (h : s.siu.classOf (pidOf p) = c) :
    decideFate p s = classFate c p (fun m => scramblerOutput s m p) s := by rw [decideFate, h]

/-- The classes whose errored packets are forwarded (R10). -/
theorem erroredPosition_eq (c : PidClass) (p : List (BitVec 8)) :
    erroredPosition c p = if c = .pass ∨ c = .null ∨ (∃ m, c = .service m) then .packet p else .free .removed := by
  cases c <;> simp [erroredPosition]

/-- Settles O5. -/
theorem packetFate : Obligations.PacketFate := by
  refine ⟨⟨fun p s arrived sound plain => exec_packetTaken_plain arrived sound plain, fun p s => ?_, fun pos s =>
    ⟨appendOut_sequence pos s, rfl⟩⟩, fun p s arrived errored => ?_, fun p s streaming locked length bad => ?_⟩
  · refine ⟨decideFate_of, decideFate_of, decideFate_of, decideFate_of, ?_, fun m service => ?_⟩
    · rintro (h | h | ⟨m, h⟩) <;> exact decideFate_of h
    · rw [decideFate_of service]
      exact ⟨fun scrambled => if_pos scrambled, fun clear => if_neg (not_not_intro clear)⟩
  · have row : exec (.packetTaken p) s =
        .next (appendOut (erroredPosition (s.siu.classOf (pidOf p)) p) (countError (synced s))) := by
      rw [exec_packetTaken arrived]
      simp only [handlePacket, errored, if_true]
      rfl
    rw [row, erroredPosition_eq]
    exact ⟨fun forwarded => by rw [if_pos forwarded], fun dropped => by rw [if_neg dropped], rfl⟩
  · have row : exec (.packetTaken p) s = .next (badSync (heard s)) := by
      simp [exec, execPacketTaken, streaming, locked, length, show byteAt p 0 ≠ 0x47#8 from bad]
    rw [row]
    exact ⟨fun first => congrArg _ (if_pos first), fun second => congrArg _ (if_neg second)⟩

/-! ## The Scrambler (R14) -/

/-- The payload begins behind the header and inside the packet (R179). -/
theorem payloadOffset_range {p : List (BitVec 8)} {off : Nat} (h : payloadOffset p = some off) : 4 ≤ off ∧ off ≤ 187 := by
  unfold payloadOffset at h
  split at h
  · simp only [Option.some.injEq] at h; omega
  · split at h
    · simp only [Option.some.injEq] at h; omega
    · contradiction

theorem byteAt_of_lt {l : List (BitVec 8)} {i : Nat} (h : i < l.length) : byteAt l i = l[i] := by
  simp [byteAt, List.getD_eq_getElem?_getD, h]

section Scrambled
variable {r : EpochRecord} {off : Nat} {p : List (BitVec 8)}

/-- The header byte that a scrambled packet carries in place of its fourth (R14). -/
def scrambledHead (r : EpochRecord) (p : List (BitVec 8)) : BitVec 8 :=
  (byteAt p 3 &&& 0x3F) ||| (r.phase.scrambling <<< 6)

theorem scrambledPacket_length (h : off ≤ p.length) : (scrambledPacket r off p).length = p.length := by
  simp [scrambledPacket, scramble]
  omega

/-- In front of its payload a scrambled packet is as it arrived but for its fourth byte (R14). -/
theorem scrambledPacket_header {i : Nat} (h : off ≤ p.length) (hi : i < off) :
    byteAt (scrambledPacket r off p) i = if i = 3 then scrambledHead r p else byteAt p i := by
  have hlen : i < p.length := by omega
  rw [byteAt_of_lt (by rw [scrambledPacket_length h]; exact hlen)]
  simp only [scrambledPacket]
  rw [List.getElem_append_left (by simp; omega), List.getElem_set]
  by_cases h3 : i = 3
  · simp [h3, scrambledHead]
  · rw [if_neg (fun e => h3 e.symm), if_neg h3, List.getElem_take, byteAt_of_lt hlen]

/-- A scrambled packet's payload is the scramble transform of the one that arrived (R14). -/
theorem scrambledPacket_payload {i : Nat} (ho : off ≤ i) (hi : i < p.length) :
    byteAt (scrambledPacket r off p) i = Config.scrambleByte r.currentWord.bits (p.drop off) (i - off) := by
  rw [byteAt_of_lt (by rw [scrambledPacket_length (by omega)]; exact hi)]
  simp only [scrambledPacket]
  rw [List.getElem_append_right (by simp; omega)]
  simp [scramble, Nat.min_eq_left (show off ≤ p.length by omega)]

/-- The low six bits of the fourth byte stay, its scrambling field gives the phase (R14). -/
theorem scrambledHead_fields : (scrambledHead r p).toNat % 64 = (byteAt p 3).toNat % 64 ∧
    (scrambledHead r p).toNat / 64 = match r.phase with | .even => 2 | .odd => 3 := by
  unfold scrambledHead
  generalize byteAt p 3 = b
  have fields : ∀ b : BitVec 8, ((b &&& 0x3F) ||| (2 <<< 6 : BitVec 8)).toNat % 64 = b.toNat % 64 ∧
      ((b &&& 0x3F) ||| (2 <<< 6 : BitVec 8)).toNat / 64 = 2 ∧
      ((b &&& 0x3F) ||| (3 <<< 6 : BitVec 8)).toNat % 64 = b.toNat % 64 ∧
      ((b &&& 0x3F) ||| (3 <<< 6 : BitVec 8)).toNat / 64 = 3 := by decide +kernel
  obtain ⟨evenLow, evenHigh, oddLow, oddHigh⟩ := fields b
  cases r.phase
  · exact ⟨evenLow, evenHigh⟩
  · exact ⟨oddLow, oddHigh⟩

end Scrambled

/-- Settles O6. -/
theorem servicePacketScrambledOnAir : Obligations.ServicePacketScrambledOnAir := by
  intro p m s arrived sound plain service
  have row : exec (.packetTaken p) s = .next
      (classFate (.service m) p (fun m => scramblerOutput (synced s) m p) (synced s)) := by
    rw [exec_packetTaken_plain arrived sound plain, decideFate_of (s := synced s) service]
  rw [row]
  have clearFate : scramblingField p = 0 → classFate (.service m) p (fun m => scramblerOutput (synced s) m p) (synced s) =
      appendOut (.packet (scramblerOutput (synced s) m p)) (synced s) := fun clear => if_neg (not_not_intro clear)
  refine ⟨fun scrambled => congrArg _ (if_pos scrambled), fun clear quiet => ?_, fun off r clear payload record onAir => ?_⟩
  · have : scramblerOutput (synced s) m p = p := by
      unfold scramblerOutput
      rcases quiet with h | h
      · rw [h]
      · split
        · rw [if_neg (by rw [show (synced s).slot m = s.slot m from rfl, h]; simp)]
        · rfl
    rw [clearFate clear, this]
  · have : scramblerOutput (synced s) m p = scrambledPacket r off p := by
      unfold scramblerOutput
      rw [payload, show (synced s).record m = some r from record]
      exact if_pos onAir
    obtain ⟨behind, inside⟩ := payloadOffset_range payload
    obtain ⟨-, -, length, -⟩ := arrived
    have fits : off ≤ p.length := by omega
    obtain ⟨low, field⟩ := scrambledHead_fields (r := r) (p := p)
    have head : byteAt (scrambledPacket r off p) 3 = scrambledHead r p := by
      rw [scrambledPacket_header fits (by omega), if_pos rfl]
    refine ⟨scrambledPacket r off p, by rw [clearFate clear, this], scrambledPacket_length fits,
      fun i hi h3 => by rw [scrambledPacket_header fits hi, if_neg h3], by rw [head, low], ?_, fun i ho hi => ?_⟩
    · rw [scramblingField, head]
      exact field
    · rw [scrambledPacket_payload ho hi]
      unfold EpochRecord.currentWord
      cases r.phase <;> rfl

/-! ## Clock references (R18, R20 to R22, R28) -/

/-- An evaluation releases identifiers to PASS and claims none: what is PASS stays PASS (R7, R37). -/
theorem advanceOnce_pass {m : SlotId} {s t : State} {q : Nat} (h : advanceOnce m s = some t)
    (wf : sparseWf .pass s.siu.pidMap = true) (pass : s.siu.classOf q = .pass) :
    sparseWf .pass t.siu.pidMap = true ∧ t.siu.classOf q = .pass := by
  obtain ⟨-, ⟨dest, rfl | rfl⟩ | ⟨mark, rfl⟩ | rfl⟩ := advanceOnce_cases h
  · simp [wf, pass]
  · simp [wf, pass]
  · simp [wf, pass]
  · obtain ⟨wf', class'⟩ := enterClosed_classOf m .time s wf
    exact ⟨wf', by rw [class', pass, ite_self]⟩

theorem evaluateSlot_pass {m : SlotId} {n : Nat} {s : State} {q : Nat}
    (h : sparseWf .pass s.siu.pidMap = true ∧ s.siu.classOf q = .pass) :
    sparseWf .pass (evaluateSlot m n s).siu.pidMap = true ∧ (evaluateSlot m n s).siu.classOf q = .pass := by
  induction n generalizing s with
  | zero => exact h
  | succ n ih =>
    unfold evaluateSlot
    split
    · next t ht => exact ih (advanceOnce_pass ht h.1 h.2)
    · exact h

theorem evaluateAll_pass {s : State} {q : Nat} (wf : sparseWf .pass s.siu.pidMap = true) (pass : s.siu.classOf q = .pass) :
    (evaluateAll s).siu.classOf q = .pass :=
  (List.foldlRecOn slotList _ (motive := fun t : State => sparseWf .pass t.siu.pidMap = true ∧ t.siu.classOf q = .pass) ⟨wf, pass⟩
    fun _ ht _ _ => evaluateSlot_pass ht).2

/-- The reference's part in the Timebase: adopted, or the candidate for it (R20 to R22). -/
theorem takeReference_cases (ref : StreamTime) (s : State) :
    takeReference ref s = evaluateAll (adopt ref s) ∨ (∃ b, takeReference ref s = evaluateAll (offer b (adopt ref s))) ∨
    ∃ n, takeReference ref s = setCandidate ref n s := by
  unfold takeReference
  split
  · exact .inr (.inl ⟨_, rfl⟩)
  · dsimp only
    split
    · split
      · exact .inr (.inl ⟨_, rfl⟩)
      · exact .inl rfl
    · split
      · exact .inr (.inr ⟨_, rfl⟩)
      · split
        · split
          · exact .inr (.inl ⟨_, rfl⟩)
          · exact .inr (.inr ⟨_, rfl⟩)
        · exact .inr (.inr ⟨_, rfl⟩)

theorem takeReference_pass {ref : StreamTime} {s : State} {q : Nat} (wf : sparseWf .pass s.siu.pidMap = true)
    (pass : s.siu.classOf q = .pass) : (takeReference ref s).siu.classOf q = .pass := by
  rcases takeReference_cases ref s with h | ⟨b, h⟩ | ⟨n, h⟩ <;> rw [h]
  · exact evaluateAll_pass (by simpa using wf) (by simpa using pass)
  · exact evaluateAll_pass (by simpa using wf) (by simpa using pass)
  · simpa using pass

/-- An adopted reference is stream time (R18, R20). -/
theorem adopt_now (ref : StreamTime) (s : State) : (adopt ref s).now = some ref := by
  simp [State.now, streamTime, adopt]

/-- A reference that is not adopted leaves stream time as it was (R22). -/
theorem setCandidate_now (ref : StreamTime) (n : Nat) (s : State) : (setCandidate ref n s).now = s.now := by
  simp [State.now, streamTime, setCandidate]

theorem evaluateAll_now (s : State) : (evaluateAll s).now = s.now := now_of_tbu (by simp)

theorem takeReference_now (ref : StreamTime) (s : State) :
    (takeReference ref s).now = some ref ∨ (takeReference ref s).now = s.now := by
  rcases takeReference_cases ref s with h | ⟨b, h⟩ | ⟨n, h⟩ <;> rw [h]
  · exact .inl (by rw [evaluateAll_now, adopt_now])
  · exact .inl (by rw [evaluateAll_now, now_of_tbu (s := adopt ref s) (by simp), adopt_now])
  · exact .inr (setCandidate_now ref n s)

/-- Settles O8. -/
theorem clockReferenceTaken : Obligations.ClockReferenceTaken := by
  refine ⟨fun p ref s arrived sound carried clock => ?_, ?_⟩
  · have row : exec (.packetTaken p) s =
        .next (decideFate p (if s.running then takeReference ref (synced s) else synced s)) := by
      rw [exec_packetTaken arrived, handlePacket_sound sound, offerReference, carried]
      simp only [clock, show (synced s).running = s.running from rfl, show (synced s).settings = s.settings from rfl,
        decide_true, Bool.and_true]
    rw [row]
    refine ⟨fun running => by rw [if_pos running], fun held => by rw [if_neg (by simp [held])],
      fun running pass memory => ?_⟩
    rw [if_pos running, decideFate_of (takeReference_pass (s := synced s) (pidMapWf memory) pass)]
    rfl
  · rintro ref s _ rfl
    refine ⟨takeReference_now ref s, adopt_now ref s, fun absent => ?_, fun predicted now => ?_⟩
    · simp only [takeReference, absent]
      rfl
    · refine ⟨fun near => ?_, fun far none => ?_, fun c far some => ?_⟩
      · have taken : takeReference ref s = evaluateAll (if s.tbu.state = .holdover then
            offer (.holdoverLeft (signedDistance predicted ref)) (adopt ref s) else adopt ref s) := by
          simp only [takeReference, now, near, if_true]
        rw [taken]
        refine ⟨?_, ?_, fun holdover => by rw [if_pos holdover]; rfl, fun tracking => by rw [if_neg tracking]; rfl⟩
        · split
          · rw [evaluateAll_now, now_of_tbu (s := adopt ref s) (by simp), adopt_now]
          · rw [evaluateAll_now, adopt_now]
        · split
          · simp [adopt]
          · simp [adopt]
      · simp only [takeReference, now, if_neg (Nat.not_le.mpr far), none]
        rfl
      · simp only [takeReference, now, if_neg (Nat.not_le.mpr far), some]
        refine ⟨fun away => ?_, fun agrees few => ?_, fun agrees many => ?_⟩
        · rw [if_neg (by simp [agreesWith]; omega)]
          rfl
        · rw [if_pos (by simp [agreesWith]; omega), if_neg (by omega)]
          rfl
        · rw [if_pos (by simp [agreesWith]; omega), if_pos many]
          rfl

end Sys2Proof.Machine

/-! SUPPORT. Free slots: which Word Message goes first, what a placed packet changes, and how many entries a report packet takes
(R13, R124, R146 to R149, R172). -/

namespace Sys2Proof.Machine

/-! ## The slot whose due was set first (R147) -/

/-- One slot's part in the search for the earliest due. -/
def earlierDue (s : State) (best : Option SlotId) (m : SlotId) : Option SlotId :=
  if (s.wordTimer m).due.isSome then
    match best with
    | none => some m
    | some b => if dueBefore s m b then some m else some b
  else best

theorem earliestDue_eq (s : State) : earliestDue s = slotList.foldl (earlierDue s) none := rfl

section FirstDue
variable {s : State} {m : SlotId}

theorem earlierDue_not_due (h : (s.wordTimer m).due = none) (best : Option SlotId) : earlierDue s best m = best := by
  simp [earlierDue, h]

/-- What the search holds is what it began with or a slot it has seen. -/
theorem foldl_earlierDue_mem {b : SlotId} (l : List SlotId) (best : Option SlotId)
    (h : l.foldl (earlierDue s) best = some b) : best = some b ∨ b ∈ l := by
  induction l generalizing best with
  | nil => exact .inl h
  | cons k l ih =>
    rcases ih _ h with hk | hb
    · unfold earlierDue at hk
      split at hk
      · split at hk
        · exact .inr (by simp [Option.some.inj hk])
        · split at hk
          · exact .inr (by simp [Option.some.inj hk])
          · exact .inl hk
      · exact .inl hk
    · exact .inr (List.mem_cons_of_mem k hb)

/-- Against the first due no other slot is earlier, and no lower one as early (R147). -/
theorem firstDue_before (h : firstDue m s) {b : SlotId} (hb : b ≠ m) :
    (b.val < m.val → dueBefore s m b = true) ∧ dueBefore s b m = false := by
  obtain ⟨due, first⟩ := h
  have := first b hb
  unfold dueBefore
  cases hm : (s.wordTimer m).due with
  | none => simp [hm] at due
  | some d =>
    cases hk : (s.wordTimer b).due with
    | none => simp
    | some e =>
      simp only [hm, hk, decide_eq_true_eq] at this ⊢
      exact ⟨fun hlt => by omega, by simp only [decide_eq_false_iff_not]; omega⟩

/-- The first due takes the search from any lower slot. -/
theorem earlierDue_first (h : firstDue m s) (best : Option SlotId) (lower : ∀ b, best = some b → b.val < m.val) :
    earlierDue s best m = some m := by
  unfold earlierDue
  rw [if_pos h.1]
  cases best with
  | none => rfl
  | some b =>
    have hb := lower b rfl
    exact if_pos ((firstDue_before h (fun e => by subst e; omega)).1 hb)

/-- No later slot takes the search from the first due. -/
theorem foldl_earlierDue_first (h : firstDue m s) (l : List SlotId) (hl : m ∉ l) :
    l.foldl (earlierDue s) (some m) = some m := by
  induction l with
  | nil => rfl
  | cons k l ih =>
    rw [List.mem_cons, not_or] at hl
    have kept : earlierDue s (some m) k = some m := by
      unfold earlierDue
      split
      · simp [(firstDue_before h (Ne.symm hl.1)).2]
      · rfl
    rw [List.foldl_cons, kept, ih hl.2]

/-- Slot order: the lower slots, the slot itself, the higher ones. -/
theorem slotList_split (m : SlotId) : slotList = slotList.take m.val ++ m :: slotList.drop (m.val + 1) ∧
    (∀ b ∈ slotList.take m.val, b.val < m.val) ∧ m ∉ slotList.drop (m.val + 1) := by
  revert m
  decide

theorem earliestDue_of_firstDue (h : firstDue m s) : earliestDue s = some m := by
  obtain ⟨split, lower, higher⟩ := slotList_split m
  rw [earliestDue_eq, split, List.foldl_append, List.foldl_cons, earlierDue_first h, foldl_earlierDue_first h _ higher]
  intro b hb
  exact lower b ((foldl_earlierDue_mem _ _ hb).resolve_left (by simp))

theorem earliestDue_of_none (h : noWordDue s) : earliestDue s = none :=
  List.foldlRecOn slotList (earlierDue s) (motive := fun best => best = none) rfl fun best hbest m _ => by
    rw [earlierDue_not_due (h m), hbest]

end FirstDue

/-! ## A packet in a free slot (R13, R146) -/

/-- A free slot that the output has reached is taken (R146). -/
theorem takeFree_of_atFree {src : FreeSource} {rest : List OutPosition} {s : State} (h : atFree src rest s) :
    takeFree s = some (src, afterTake rest s) := by
  obtain ⟨-, positions, quiet⟩ := h
  unfold takeFree afterTake
  rw [positions]
  cases hs : s.out.sending with
  | none => simp [hs]
  | some y =>
    have : y.emission = .quiet := by simpa [hs] using quiet
    simp [this]

/-- FREE_SLOT where the output has reached a free slot: the Insertion Arbiter fills it (R146). -/
theorem exec_freeSlot {src : FreeSource} {rest : List OutPosition} {s : State} (h : atFree src rest s) :
    exec .freeSlot s = .next (fillFree src (afterTake rest s)) := by
  simp [exec, execFreeSlot, h.1, takeFree_of_atFree h]

section Placed
variable {pid : Nat} {content : List (BitVec 8)} {e : Emission} {rest : List OutPosition} {s u : State}

/-- A packet of which nothing is told fills the free slot in its place (R146). -/
theorem place_fills (out : u.out = (afterTake rest s).out) :
    fills (insertedPacket pid (counterOf u pid) content) rest s (place pid content e u) := by
  unfold fills place
  rw [drain_sequence]
  simp only [OutPath.sequence, out, afterTake]
  cases s.out.sending <;> simp

/-- A packet whose emission is to be told stands in transmission, and the output stops behind it (R133, R146, R172). -/
theorem place_carries (told : e ≠ .quiet) (out : u.out = (afterTake rest s).out) :
    carries (insertedPacket pid (counterOf u pid) content) e rest s (place pid content e u) := by
  have stops : ∀ (l : List OutPosition) (y : Sending) (sent : List (List (BitVec 8))), y.emission ≠ .quiet →
      drainList l (some y) sent = (l, some y, sent) := by
    intro l y sent hy
    cases l with
    | nil => rfl
    | cons pos l =>
      cases pos with
      | packet p => rw [drainList, if_neg hy]
      | free src => rfl
  unfold carries place drain
  simp only [out]
  rw [stops _ _ _ told]

/-- A placed packet takes its identifier's counter one on (R13). -/
theorem place_counts (wf : sparseWf 0 u.siu.continuity = true) : counts pid u (place pid content e u) :=
  ⟨(sparseGet_set wf pid pid _).trans (if_pos rfl), fun _ hp => sparseGet_set_ne hp⟩

end Placed

/-- Settles O9. -/
theorem freeSlotWordMessage : Obligations.FreeSlotWordMessage := by
  intro m rec r src rest s memory free first live record
  have filled : fillFree src (afterTake rest s) = placeWord m rec r (afterTake rest s) := by
    have live' : (afterTake rest s).live m = some rec := live
    have record' : (afterTake rest s).record m = some r := record
    simp only [fillFree, earliestDue_of_firstDue (s := afterTake rest s) first, live', record']
  refine ⟨placeWord m rec r (afterTake rest s), by rw [exec_freeSlot free, filled], place_fills rfl,
    place_counts (continuityWf memory), ?_, fun n hn => ?_, rfl⟩
  · exact setWordTimer_wordTimer_self ..
  · exact (setWordTimer_wordTimer (afterTake rest s) m n _).trans (if_neg hn)

/-! ## Report packets (R149, R172) -/

/-- A report packet takes entries from the head while fewer than allowed are held and the next one fits (R172). -/
theorem entriesThatFit_spec (most room : Nat) (l : List ReportEntry) :
    entriesThatFit most room l ≤ most ∧ entriesThatFit most room l ≤ l.length ∧
    ((l.take (entriesThatFit most room l)).map ReportEntry.size).sum ≤ room ∧
    (entriesThatFit most room l < most → ∀ e, l[entriesThatFit most room l]? = some e →
      room < ((l.take (entriesThatFit most room l)).map ReportEntry.size).sum + e.size) := by
  induction most, room, l using entriesThatFit.induct with
  | case1 room l => simp [entriesThatFit]
  | case2 n room => simp [entriesThatFit]
  | case3 n room e rest fits ih =>
    obtain ⟨count, length, sum, next⟩ := ih
    rw [entriesThatFit, if_pos fits, Nat.add_comm]
    simp only [List.take_succ_cons, List.map_cons, List.sum_cons, List.length_cons, List.getElem?_cons_succ]
    refine ⟨by omega, by omega, by omega, fun less x hx => ?_⟩
    have := next (by omega) x hx
    omega
  | case4 n room e rest full =>
    rw [entriesThatFit, if_neg full]
    refine ⟨by omega, by omega, by simp, fun _ x hx => ?_⟩
    have : e = x := by simpa using hx
    subst this
    simp
    omega

/-- Settles O10. -/
theorem freeSlotReportPid : Obligations.FreeSlotReportPid := by
  refine ⟨fun src rest s memory free quiet => ?_, fun l n hn => hn ▸ entriesThatFit_spec 8 183 l, fun _ _ _ _ _ _ => rfl⟩
  have unworded : fillFree src (afterTake rest s) = placeUnworded src (afterTake rest s) := by
    unfold fillFree
    rw [earliestDue_of_none (s := afterTake rest s) quiet]
  refine ⟨fun due => ?_, fun idle waiting => ?_⟩
  · have placed : placeUnworded src (afterTake rest s) = placeSummary (afterTake rest s) := if_pos due
    exact ⟨placeSummary (afterTake rest s), by rw [exec_freeSlot free, unworded, placed],
      place_fills (u := { afterTake rest s with ina := { s.ina with statusDue := false } }) rfl,
      place_counts (continuityWf memory), rfl⟩
  · have placed : placeUnworded src (afterTake rest s) = placeReport (afterTake rest s) := by
      unfold placeUnworded
      rw [if_neg (by simp [afterTake, idle]), if_pos (show (afterTake rest s).rpu.entries ≠ [] from waiting)]
    exact ⟨placeReport (afterTake rest s), entriesThatFit 8 183 s.rpu.entries, rfl,
      by rw [exec_freeSlot free, unworded, placed],
      place_carries (u := { afterTake rest s with
        rpu := { s.rpu with entries := s.rpu.entries.drop (entriesThatFit 8 183 s.rpu.entries) } }) (by simp) rfl,
      place_counts (continuityWf memory), rfl⟩

end Sys2Proof.Machine

/-! SUPPORT. CLEAR STORE: the slots that a cut walk settles, one after the other, and the store's entry into CLEARING
(R43, R46, R60, R61, R70). -/

namespace Sys2Proof.Machine

/-! ## Reports of a change of slot state (R46) -/

/-- A report gives up a place that the Command Unit holds, and changes nothing else of it. -/
theorem offer_cmu (b : ReportBody) (s : State) : (offer b s).cmu = { s.cmu with progress := (offer b s).cmu.progress } := by
  unfold offer
  dsimp only
  split
  · rfl
  · split
    · split <;> rfl
    · rfl

theorem offerAll_cmu (l : List ReportBody) (s : State) :
    (offerAll l s).cmu = { s.cmu with progress := (offerAll l s).cmu.progress } := by
  induction l generalizing s with
  | nil => rfl
  | cons b l ih =>
    show (offerAll l (offer b s)).cmu = { s.cmu with progress := (offerAll l (offer b s)).cmu.progress }
    rw [ih, offer_cmu]

theorem offerAll_tbu (l : List ReportBody) (s : State) : (offerAll l s).tbu = s.tbu :=
  foldl_keeps State.tbu (by intro a b; simp) l s

/-- Reports of one part of a run and then of the next. -/
theorem reports_append {l l' : List ReportBody} {s t u : State} (first : reports l s t) (tbu : t.tbu = s.tbu)
    (second : reports l' t u) : reports (l ++ l') s u := by
  have := reports_of (s := offerAll l s) second first.1 first.2 (by rw [tbu, offerAll_tbu])
  rwa [reports, offerAll, List.foldl_append]

/-- A change of state gives its one report (R46). -/
theorem enterState_reports (m : SlotId) (dest : SlotState) (c : StateCause) (s : State) (notEnded : dest ≠ .ended)
    (id : dest = .empty → s.matchId m = 0) : reports [stateReport s m dest c none] s (enterState m dest c s) := by
  have body : stateReport s m dest c none =
      .matchState m (s.matchId m) (s.slot m).state dest c (if dest = .ended then (s.slot m).endMark else none) := by
    unfold stateReport
    rw [if_neg notEnded]
    split
    · rw [id ‹_›]
    · rfl
  rw [body]
  exact offer_reports_of (s := s) (t := s.setSlot m { s.slot m with state := dest }) _ rfl rfl rfl

/-- A slot that did not stand in ENDED enters CLOSED with the one report (R43, R46). -/
theorem enterClosed_reports (m : SlotId) (c : StateCause) (s : State) (notEnded : (s.slot m).state ≠ .ended) :
    reports [stateReport s m .closed c none] s (enterClosed m c s) := by
  have whole : enterClosed m c s = stopWords m (releaseClaims m (enterState m .closed c s)) := by
    unfold enterClosed
    simp [notEnded]
  obtain ⟨rpu, cmu⟩ := enterState_reports m .closed c s (by decide) (by simp)
  rw [whole]
  exact ⟨by simp [rpu], by simp [cmu]⟩

/-- A slot that becomes EMPTY gives its report with match id 0 (R42, R46). -/
theorem enterEmpty_reports (m : SlotId) (c : StateCause) (s : State) :
    reports [stateReport s m .empty c none] s (enterEmpty m c s) := by
  let bare := s.setSlot m { s.slot m with live := none, endMark := none }
  have same : stateReport bare m .empty c none = stateReport s m .empty c none := by
    simp [bare, stateReport]
  have := enterState_reports m .empty c bare (by decide) (by simp [bare, State.matchId, State.live])
  rw [same] at this
  exact reports_of this rfl rfl rfl

/-! ## One slot settled (R70) -/

/-- What a cut walk leaves of a slot (R70). -/
def MatchSlot.settled (x : MatchSlot) : MatchSlot :=
  match x.state with
  | .wiping => { x with state := .empty, live := none, endMark := none }
  | .abandoned => { x with state := .closed }
  | _ => x

theorem settled_wiping {x : MatchSlot} (h : x.state = .wiping) :
    x.settled = { x with state := .empty, live := none, endMark := none } := by simp [MatchSlot.settled, h]

theorem settled_abandoned {x : MatchSlot} (h : x.state = .abandoned) : x.settled = { x with state := .closed } := by
  simp [MatchSlot.settled, h]

theorem settled_other {x : MatchSlot} (wiping : x.state ≠ .wiping) (abandoned : x.state ≠ .abandoned) : x.settled = x := by
  unfold MatchSlot.settled
  split
  · contradiction
  · contradiction
  · rfl

/-- The place and the skips that slot m's cut refund walk had reached, zeros where it had not begun (R70). -/
def cutPlace (w : Option Walk) (m : SlotId) : Nat × Nat × Nat :=
  match w with
  | some x => if x.kind = .refund m then (x.cohort, x.rowSkips, x.seatSkips) else (0, 0, 0)
  | none => (0, 0, 0)

/-- The report of the cut refund walk. -/
def cutReport (w : Option Walk) (m : SlotId) : ReportBody :=
  .refundCut m (cutPlace w m).1 (cutPlace w m).2.1 (cutPlace w m).2.2

section Settle
variable {w : Option Walk} {m : SlotId} {s : State}

theorem settleSlot_wiping (h : (s.slot m).state = .wiping) : settleSlot w m s = enterEmpty m .walkCut s := by
  simp [settleSlot, h]

theorem settleSlot_abandoned (h : (s.slot m).state = .abandoned) :
    settleSlot w m s = enterClosed m .walkCut (offer (cutReport w m) s) := by
  unfold settleSlot
  rw [h]
  rfl

theorem settleSlot_other (wiping : (s.slot m).state ≠ .wiping) (abandoned : (s.slot m).state ≠ .abandoned) :
    settleSlot w m s = s := by
  unfold settleSlot
  split
  · contradiction
  · contradiction
  all_goals rfl

theorem cutReports_wiping (h : (s.slot m).state = .wiping) : cutReports s m = [stateReport s m .empty .walkCut none] := by
  simp [cutReports, h]

theorem cutReports_abandoned (h : (s.slot m).state = .abandoned) :
    cutReports s m = [cutReport s.sst.walk m, stateReport s m .closed .walkCut none] := by
  unfold cutReports cutReport cutPlace
  rw [h]
  cases s.sst.walk with
  | none => rfl
  | some x => by_cases hx : x.kind = .refund m <;> simp [hx]

theorem cutReports_other (wiping : (s.slot m).state ≠ .wiping) (abandoned : (s.slot m).state ≠ .abandoned) :
    cutReports s m = [] := by
  unfold cutReports
  split
  · contradiction
  · contradiction
  · contradiction
  · rfl

/-- The states in which a cut walk finds a slot: WIPING, ABANDONED, or one that it leaves alone (R70). -/
theorem settle_cases (s : State) (m : SlotId) : (s.slot m).state = .wiping ∨ (s.slot m).state = .abandoned ∨
    ((s.slot m).state ≠ .wiping ∧ (s.slot m).state ≠ .abandoned) := by
  by_cases wiping : (s.slot m).state = .wiping
  · exact .inl wiping
  · by_cases abandoned : (s.slot m).state = .abandoned
    · exact .inr (.inl abandoned)
    · exact .inr (.inr ⟨wiping, abandoned⟩)

theorem settleSlot_slot (w : Option Walk) (m n : SlotId) (s : State) :
    (settleSlot w m s).slot n = if n = m then (s.slot m).settled else s.slot n := by
  rcases settle_cases s m with h | h | ⟨wiping, abandoned⟩
  · rw [settleSlot_wiping h, enterEmpty_slot, settled_wiping h]
  · have kept : ∀ k, (offer (cutReport w m) s).slot k = s.slot k := slot_of_mtb (by simp)
    rw [settleSlot_abandoned h, enterClosed_slot, settled_abandoned h, kept, kept]
  · rw [settleSlot_other wiping abandoned, settled_other wiping abandoned]
    split
    · rw [‹n = m›]
    · rfl

theorem settleSlot_record (w : Option Walk) (m n : SlotId) (s : State) :
    (settleSlot w m s).record n = if n = m ∧ (s.slot m).state = .wiping then none else s.record n := by
  rcases settle_cases s m with h | h | ⟨wiping, abandoned⟩
  · rw [settleSlot_wiping h, enterEmpty_record]
    simp [h]
  · have kept : (offer (cutReport w m) s).slot m = s.slot m := slot_of_mtb (by simp) m
    have keptRecord : (offer (cutReport w m) s).record n = s.record n := record_of_epc (by simp) n
    rw [settleSlot_abandoned h, enterClosed_record, kept, keptRecord]
    simp [h]
  · rw [settleSlot_other wiping abandoned, if_neg (fun both => wiping both.2)]

/-- A settled slot gives the reports of R70 for it, in their order. -/
theorem settleSlot_reports (m : SlotId) (s : State) : reports (cutReports s m) s (settleSlot s.sst.walk m s) := by
  rcases settle_cases s m with h | h | ⟨wiping, abandoned⟩
  · rw [settleSlot_wiping h, cutReports_wiping h]
    exact enterEmpty_reports m .walkCut s
  · have slot : (offer (cutReport s.sst.walk m) s).slot m = s.slot m := slot_of_mtb (by simp) m
    have same : stateReport (offer (cutReport s.sst.walk m) s) m .closed .walkCut none =
        stateReport s m .closed .walkCut none := by
      simp [stateReport, State.matchId, State.live, slot]
    have closed := enterClosed_reports m .walkCut (offer (cutReport s.sst.walk m) s) (by rw [slot, h]; decide)
    rw [same] at closed
    have cut : reports [cutReport s.sst.walk m] s (offer (cutReport s.sst.walk m) s) := ⟨rfl, rfl⟩
    rw [settleSlot_abandoned h, cutReports_abandoned h]
    exact reports_append cut (by simp) closed
  · rw [settleSlot_other wiping abandoned, cutReports_other wiping abandoned]
    exact ⟨rfl, rfl⟩

/-- A settled slot that was ABANDONED gives its identifiers up (R7, R43, R70). -/
theorem settleSlot_classOf (w : Option Walk) (m : SlotId) (s : State) (h : sparseWf .pass s.siu.pidMap = true) :
    sparseWf .pass (settleSlot w m s).siu.pidMap = true ∧ ∀ q, (settleSlot w m s).siu.classOf q =
      if (s.slot m).state = .abandoned ∧ ∃ rec, s.live m = some rec ∧ q ∈ rec.claims then .pass else s.siu.classOf q := by
  rcases settle_cases s m with state | state | ⟨wiping, abandoned⟩
  · rw [settleSlot_wiping state]
    simpa [state] using h
  · have live : (offer (cutReport w m) s).live m = s.live m := live_of_mtb (by simp) m
    have := enterClosed_classOf m .walkCut (offer (cutReport w m) s) (by simpa using h)
    rw [live] at this
    rw [settleSlot_abandoned state]
    simpa [state] using this
  · rw [settleSlot_other wiping abandoned]
    simpa [abandoned] using h

end Settle

/-! ## All slots settled, and the entry into CLEARING (R60, R61, R70) -/

/-- The slots of l have been settled, each once, in this order. -/
structure SettledSlots (s : State) (l : List SlotId) (t : State) : Prop where
  sst : t.sst = { s.sst with walkQueue := [] }
  rest : t.out = s.out ∧ t.tbu = s.tbu ∧ t.gcr = s.gcr
  slot : ∀ n, t.slot n = if n ∈ l then (s.slot n).settled else s.slot n
  record : ∀ n, t.record n = if n ∈ l ∧ (s.slot n).state = .wiping then none else s.record n
  given : reports (l.flatMap (cutReports s)) s t
  classes : sparseWf .pass s.siu.pidMap = true → sparseWf .pass t.siu.pidMap = true ∧ ∀ q, t.siu.classOf q =
    if ∃ m ∈ l, (s.slot m).state = .abandoned ∧ ∃ rec, s.live m = some rec ∧ q ∈ rec.claims then .pass else s.siu.classOf q

/-- One more slot settled. -/
theorem SettledSlots.snoc {s t : State} {l : List SlotId} {m : SlotId} (h : SettledSlots s l t) (fresh : m ∉ l) :
    SettledSlots s (l ++ [m]) (settleSlot s.sst.walk m t) := by
  have slotM : t.slot m = s.slot m := (h.slot m).trans (if_neg fresh)
  have liveM : t.live m = s.live m := congrArg MatchSlot.live slotM
  have walk : t.sst.walk = s.sst.walk := by rw [h.sst]
  obtain ⟨out, tbu, gcr⟩ := h.rest
  refine ⟨by simp [h.sst], by simp [out, tbu, gcr], fun n => ?_, fun n => ?_, ?_, fun wf => ?_⟩
  · rw [settleSlot_slot, slotM, h.slot n]
    by_cases hn : n = m
    · subst hn; simp
    · simp [hn]
  · rw [settleSlot_record, slotM, h.record n]
    by_cases hn : n = m
    · subst hn; simp [fresh]
    · simp [hn]
  · have same : cutReports t m = cutReports s m := by
      simp [cutReports, stateReport, State.matchId, liveM, slotM, walk]
    have given := settleSlot_reports m t
    rw [same, walk] at given
    rw [List.flatMap_append, List.flatMap_singleton]
    exact reports_append h.given tbu given
  · obtain ⟨wfT, before⟩ := h.classes wf
    obtain ⟨wfU, after⟩ := settleSlot_classOf s.sst.walk m t wfT
    refine ⟨wfU, fun q => ?_⟩
    rw [after q, before q, slotM, liveM]
    by_cases gives : (s.slot m).state = .abandoned ∧ ∃ rec, s.live m = some rec ∧ q ∈ rec.claims
    · rw [if_pos gives, if_pos ⟨m, by simp, gives⟩]
    · rw [if_neg gives]
      simp only [List.mem_append, List.mem_singleton, or_and_right, exists_or, exists_eq_left, gives, or_false]

/-- The slots of `l` settled behind those of `done`. -/
theorem SettledSlots.foldl {s t : State} {done : List SlotId} (l : List SlotId) (h : SettledSlots s done t)
    (once : (done ++ l).Nodup) : SettledSlots s (done ++ l) (l.foldl (fun t m => settleSlot s.sst.walk m t) t) := by
  induction l generalizing done t with
  | nil => rwa [List.append_nil]
  | cons m l ih =>
    obtain ⟨-, -, apart⟩ := List.nodup_append.1 once
    rw [List.append_cons] at once ⊢
    exact ih (h.snoc fun hm => apart m hm m List.mem_cons_self rfl) once

theorem settledSlots_none (s : State) : SettledSlots s [] { s with sst := { s.sst with walkQueue := [] } } where
  sst := rfl
  rest := ⟨rfl, rfl, rfl⟩
  slot _ := rfl
  record _ := (if_neg fun both => List.not_mem_nil both.1).symm
  given := ⟨rfl, rfl⟩
  classes wf := ⟨wf, fun _ => (if_neg fun ⟨_, hm, _⟩ => List.not_mem_nil hm).symm⟩

theorem settledSlots_slotList (s : State) : SettledSlots s slotList
    (slotList.foldl (fun t m => settleSlot s.sst.walk m t) { s with sst := { s.sst with walkQueue := [] } }) :=
  (settledSlots_none s).foldl slotList (by decide)

/-- The store enters CLEARING, its report given (R60). -/
theorem enterClearing_reports (s : State) : reports [.storeClearing] s (enterClearing s) := by
  unfold enterClearing reports
  simp only [revokeWhere_frame]
  exact offer_reports_of _ rfl rfl rfl

theorem enterClearing_sst (s : State) : (enterClearing s).sst = { s.sst with
    signature := 0, poison := [], store := .clearing
    walk := some { kind := .clear, cohort := 0, rowSkips := 0, seatSkips := 0 } } := by
  simp [enterClearing]

theorem grantingWith_iff {s : State} {f : FailPolicy} {m : SlotId} :
    s.grantingWith f m = true ↔ s.granting m = true ∧ ∃ rec, s.live m = some rec ∧ rec.failPolicy = f := by
  unfold State.grantingWith
  cases s.live m <;> simp

/-- A granting slot with the CLOSED fail policy owes a revocation as the store enters CLEARING (R61). -/
theorem enterClearing_record (m : SlotId) (s : State) : (enterClearing s).record m =
    if s.grantingWith .closedPolicy m = true then
      (s.record m).map fun r => r.notice (r.issued || s.carouselHolds m r.epoch)
    else s.record m := by
  unfold enterClearing
  dsimp only
  generalize hu : offer ReportBody.storeClearing _ = u
  have mtb : u.mtb = s.mtb := by simp [← hu]
  have live : u.live m = s.live m := live_of_mtb mtb m
  have granting : u.granting m = s.granting m := granting_of_mtb mtb m
  have record : u.record m = s.record m := record_of_epc (by simp [← hu]) m
  have holds : ∀ e, u.carouselHolds m e = s.carouselHolds m e :=
    carouselHolds_of (by simp [← hu]) (by simp [← hu]) m (by rw [live])
  have closed : u.grantingWith .closedPolicy m = s.grantingWith .closedPolicy m := by
    simp only [State.grantingWith, live, granting]
  have owes : (s.grantingWith .closedPolicy m = true ∧ s.granting m = true) ↔ s.grantingWith .closedPolicy m = true :=
    ⟨And.left, fun h => ⟨h, (grantingWith_iff.1 h).1⟩⟩
  simp only [revokeWhere_record, closed, granting, record, holds, owes]

/-- CLEAR_STORE where its unit is ready: the cut, and the command's end (R70, R161). -/
theorem exec_clearStore {x : Executing} {s : State} (takes : Takes .clearStore x s) :
    exec .clearStore s = .next (endWhole x .taken (cutAndClear s)) := by
  show execClearStore s = _
  rw [execClearStore, wholeUnit_of_takes takes]

/-- Settles O43. -/
theorem clearStoreCuts : Obligations.ClearStoreCuts := by
  intro x s takes
  have h := settledSlots_slotList s
  generalize ht : slotList.foldl (fun t m => settleSlot s.sst.walk m t) { s with sst := { s.sst with walkQueue := [] } } = t at h
  have clear : cutAndClear s = enterClearing t := congrArg enterClearing ht
  obtain ⟨out, tbu, gcr⟩ := h.rest
  have slot : ∀ m, (enterClearing t).slot m = (s.slot m).settled := fun m => by
    rw [slot_of_mtb (s := t) (by simp), h.slot, if_pos (mem_slotList m)]
  have record : ∀ m, t.record m = if (s.slot m).state = .wiping then none else s.record m := fun m => by
    rw [h.record]
    simp [mem_slotList]
  have given : reports (slotList.flatMap (cutReports s) ++ [.storeClearing]) s (enterClearing t) :=
    reports_append h.given tbu (enterClearing_reports t)
  have cmu : (enterClearing t).cmu = { s.cmu with progress := (enterClearing t).cmu.progress } := by
    rw [given.2, offerAll_cmu]
  have classes : memoryWf s = true → ∀ q, (enterClearing t).siu.classOf q =
      if ∃ m, (s.slot m).state = .abandoned ∧ ∃ rec, s.live m = some rec ∧ q ∈ rec.claims then .pass
      else s.siu.classOf q := fun memory q => by
    rw [(enterClearing_frame t).1, (h.classes (pidMapWf memory)).2 q]
    simp [mem_slotList]
  have sst : (enterClearing t).sst = { s.sst with poison := [], signature := 0, store := .clearing, walkQueue := []
                                                  walk := some { kind := .clear, cohort := 0, rowSkips := 0, seatSkips := 0 } } := by
    simp only [enterClearing_sst, h.sst]
  refine ⟨enterClearing t, ?_, sst, fun m => ⟨fun state => ?_, fun state => ?_, fun wiping abandoned => ?_⟩, given,
    fun m rec memory state live p hp => ?_, fun p memory apart => ?_, ?_, ?_, ?_, ?_, ?_, by rw [cmu], by rw [cmu]⟩
  · rw [← clear, exec_clearStore takes]
  · rw [slot, settled_wiping state, enterClearing_record, record, if_pos state]
    simp
  · rw [slot, settled_abandoned state]
  · have slotM : t.slot m = s.slot m := by rw [h.slot, settled_other wiping abandoned, ite_self]
    have liveM : t.live m = s.live m := congrArg MatchSlot.live slotM
    refine ⟨by rw [slot, settled_other wiping abandoned], fun r hr => ?_⟩
    have granting : t.grantingWith .closedPolicy m = s.grantingWith .closedPolicy m := by
      simp [State.grantingWith, State.granting, slotM, liveM]
    rw [enterClearing_record, record, if_neg wiping, hr, granting]
    simp only [grantingWith_iff, Option.map_some, carouselHolds_of gcr out m (by rw [liveM])]
    split <;> rfl
  · rw [classes memory, if_pos ⟨m, state, rec, live, hp⟩]
  · rw [classes memory, if_neg]
    rintro ⟨m, state, rec, live, hp⟩
    exact apart m rec state live hp
  all_goals simp [← clear]

end Sys2Proof.Machine

/-! SUPPORT. SET SETTINGS: validation, the clamped values, and what a new value changes in the block that owns it
(R8, R13, R163, R180). -/

namespace Sys2Proof.Machine

/-! ## Validation and clamping (R163, R180) -/

theorem badPair_iff {p : Nat × Nat} : badPair p = true ↔ p.1 = 0 ∨ 19 < p.1 ∨ (p.1 = 13 ∧ 1 < p.2) := by
  simp [badPair, or_assoc]

theorem badPair_false_iff {p : Nat × Nat} : badPair p = false ↔ 1 ≤ p.1 ∧ p.1 ≤ 19 ∧ (p.1 = 13 → p.2 ≤ 1) := by
  rw [← Bool.not_eq_true, badPair_iff]
  omega

/-- The first pair that fails is the one that is named (R163). -/
theorem findIdx_badPair_some {pairs : List (Nat × Nat)} {k : Nat} {p : Nat × Nat} (at_k : pairs[k]? = some p)
    (bad : badPair p = true) (first : ∀ j q, j < k → pairs[j]? = some q → badPair q = false) :
    pairs.findIdx? badPair = some k := by
  obtain ⟨inside, rfl⟩ := List.getElem?_eq_some_iff.1 at_k
  refine List.findIdx?_eq_some_iff_getElem.2 ⟨inside, bad, fun j hj => ?_⟩
  rw [first j pairs[j] hj (List.getElem?_eq_getElem (by omega))]
  decide

theorem findIdx_badPair_none {pairs : List (Nat × Nat)} (good : ∀ p ∈ pairs, badPair p = false) :
    pairs.findIdx? badPair = none := List.findIdx?_eq_none_iff.2 good

theorem marksAccepted_iff {u : Siu} {old new : Settings} : marksAccepted u old new = true ↔ new.marks.Nodup ∧
    ∀ p ∈ new.marks, p ∈ old.marks ∨ u.classOf p = .pass ∨ u.classOf p = .drop := by
  simp [marksAccepted, or_assoc]

theorem not_mem_marks {t : Settings} {p : Nat} :
    p ∉ t.marks ↔ p ≠ t.controlPid ∧ p ≠ t.reportPid ∧ p ≠ t.grantPid := by
  simp [Settings.marks]

theorem marks_nodup {t : Settings} : t.marks.Nodup ↔
    t.controlPid ≠ t.reportPid ∧ t.controlPid ≠ t.grantPid ∧ t.reportPid ≠ t.grantPid := by
  simp [Settings.marks, and_assoc]

theorem clampTo_within (lo hi v : Nat) (h : lo ≤ hi) : within lo hi (clampTo lo hi v) := by
  unfold clampTo
  omega

theorem clampOrOff_within (lo hi v : Nat) (h : lo ≤ hi) : offOrWithin lo hi (clampOrOff lo hi v) := by
  unfold clampOrOff
  split
  · exact .inl rfl
  · exact .inr (clampTo_within lo hi v h)

/-! ## The settings after the pairs (R163) -/

/-- What a setting's place in the table of section 10.6 holds once a clamped value is put there. -/
def storedValue (pos v : Nat) : Nat := if pos = 13 then (fillModeOf v).code else v

/-- A setting put at its position changes that one place of the table; positions outside the table change nothing. -/
theorem putSetting_values (t : Settings) (pos v : Nat) :
    (putSetting t (pos + 1) v).values = t.values.set pos (storedValue (pos + 1) v) := by
  by_cases inside : pos < 19
  · match pos, inside with
    | 0, _ | 1, _ | 2, _ | 3, _ | 4, _ | 5, _ | 6, _ | 7, _ | 8, _ | 9, _ => rfl
    | 10, _ | 11, _ | 12, _ | 13, _ | 14, _ | 15, _ | 16, _ | 17, _ | 18, _ => rfl
    | n + 19, outside => omega
  · have : putSetting t (pos + 1) v = t := by
      unfold putSetting
      split
      case h_20 => rfl
      all_goals omega
    rw [this, List.set_eq_of_length_le (by simpa [Settings.values] using inside)]

section After
variable {t : Settings} {pairs : List (Nat × Nat)} {k : Nat}

theorem putSetting_value (t : Settings) (pos v : Nat) (hk : k < 19) : (putSetting t pos v).values[k]? =
    if pos = k + 1 then some (storedValue (k + 1) v) else t.values[k]? := by
  cases pos with
  | zero => rfl
  | succ pos =>
    rw [putSetting_values, List.getElem?_set]
    by_cases h : pos = k
    · subst h
      simp [Settings.values, hk]
    · simp [h]

/-- A setting that no pair names stays (R163). -/
theorem settingsAfter_unnamed (hk : k < 19) (unnamed : ∀ p ∈ pairs, p.1 ≠ k + 1) :
    (settingsAfter t pairs).values[k]? = t.values[k]? := by
  induction pairs generalizing t with
  | nil => rfl
  | cons p l ih =>
    rw [List.forall_mem_cons] at unnamed
    rw [settingsAfter, List.foldl_cons]
    exact (ih unnamed.2).trans ((putSetting_value t _ _ hk).trans (if_neg unnamed.1))

/-- The last pair of a setting decides (R163). -/
theorem settingsAfter_last {v : Nat} {a b : List (Nat × Nat)} (hk : k < 19) (last : ∀ p ∈ b, p.1 ≠ k + 1) :
    (settingsAfter t (a ++ (k + 1, v) :: b)).values[k]? = some (storedValue (k + 1) (clampSetting (k + 1) v)) := by
  rw [settingsAfter, List.foldl_append, List.foldl_cons]
  exact (settingsAfter_unnamed hk last).trans ((putSetting_value _ _ _ hk).trans (if_pos rfl))

/-- A clamped value lies in the range of its setting (section 10.6). -/
theorem putSetting_lawful (h : t.lawful) (pos v : Nat) (low : 1 ≤ pos) (high : pos ≤ 19) :
    (putSetting t pos (clampSetting pos v)).lawful := by
  match pos, low, high with
  | 1, _, _ => exact { h with cryptoPeriod := clampTo_within 2 60 v (by decide) }
  | 2, _, _ => exact { h with wordInterval := clampTo_within 20 500 v (by decide) }
  | 3, _, _ => exact { h with grantPace := clampOrOff_within 1 10000 v (by decide) }
  | 4, _, _ => exact { h with freshRunLimit := clampTo_within 1 8 v (by decide) }
  | 5, _, _ => exact { h with freshRepeats := clampTo_within 1 3 v (by decide) }
  | 6, _, _ => exact { h with rolloverPasses := clampTo_within 1 4 v (by decide) }
  | 7, _, _ => exact { h with rushThreshold := clampOrOff_within 10 1800 v (by decide) }
  | 8, _, _ => exact { h with rolloverDeadline := clampTo_within 30 3600 v (by decide) }
  | 9, _, _ => exact { h with epochLifetime := clampOrOff_within 5 240 v (by decide) }
  | 10, _, _ => exact { h with creditCap := clampTo_within 1 65535 v (by decide) }
  | 11, _, _ => exact { h with holdoverLimit := clampTo_within 100 2000 v (by decide) }
  | 12, _, _ => exact { h with statusInterval := clampTo_within 500 10000 v (by decide) }
  | 13, _, _ => exact { h with }
  | 14, _, _ => exact { h with fillRate := clampTo_within 1000 200000 v (by decide) }
  | 15, _, _ => exact { h with activeCohorts := clampTo_within 1 32768 v (by decide) }
  | 16, _, _ => exact { h with controlPid := clampTo_within 0x20 0x1FFE v (by decide) }
  | 17, _, _ => exact { h with reportPid := clampTo_within 0x20 0x1FFE v (by decide) }
  | 18, _, _ => exact { h with grantPid := clampTo_within 0x20 0x1FFE v (by decide) }
  | 19, _, _ => exact { h with clockPid := clampTo_within 0 0x1FFE v (by decide) }
  | 0, outside, _ => omega
  | n + 20, _, outside => omega

theorem settingsAfter_lawful (h : t.lawful) (defined : ∀ p ∈ pairs, 1 ≤ p.1 ∧ p.1 ≤ 19) :
    (settingsAfter t pairs).lawful := by
  induction pairs generalizing t with
  | nil => exact h
  | cons p l ih =>
    rw [List.forall_mem_cons] at defined
    obtain ⟨⟨low, high⟩, rest⟩ := defined
    rw [settingsAfter, List.foldl_cons]
    exact ih (putSetting_lawful h p.1 p.2 low high) rest

end After

theorem code_injective {a b : FillMode} (h : a.code = b.code) : a = b := by
  revert h
  cases a <;> cases b <;> decide

/-! ## New settings in force (R163) -/

/-- A Holdover Limit that is reached changes the Timebase and gives its report (R23). -/
theorem holdoverLimitMoved_eq (old : Settings) (s : State) : holdoverLimitMoved old s =
    { s with tbu := (holdoverLimitMoved old s).tbu, rpu := (holdoverLimitMoved old s).rpu
             cmu := (holdoverLimitMoved old s).cmu } := by
  unfold holdoverLimitMoved holdoverLimitReached
  split
  · split
    · split
      · apply State.eq_of <;> simp [enterHoldover]
      · rfl
      · rfl
    · rfl
  · rfl

/-- The Insertion Arbiter's timers under new settings (R125, R148, R151). -/
def timersMoved (old : Settings) (s : State) : State :=
  wordIntervalMoved old (grantPaceMoved old (statusIntervalMoved old s))

theorem timersMoved_eq (old : Settings) (s : State) : timersMoved old s = { s with ina := (timersMoved old s).ina } := by
  unfold timersMoved
  generalize hw : wordIntervalMoved old (grantPaceMoved old (statusIntervalMoved old s)) = w
  rw [wordIntervalMoved_eq, grantPaceMoved_eq, statusIntervalMoved_eq] at hw
  rw [← hw]

/-- The settings replaced, the marks and Input Fill moved with them (R8, R11). -/
def settingsPut (new : Settings) (s : State) : State :=
  fillRateMoved s.settings { s with settings := new, siu := moveMarks s.settings new s.siu }

theorem settingsPut_eq (new : Settings) (s : State) : settingsPut new s = { s with
    settings := new, siu := { moveMarks s.settings new s.siu with fill := (settingsPut new s).siu.fill } } :=
  fillRateMoved_eq ..

/-- New settings in a running part: the marks and Input Fill, the Timebase, the timers (R163). -/
theorem applySettings_running {new : Settings} {s : State} (h : s.running = true) :
    applySettings new s = timersMoved s.settings (holdoverLimitMoved s.settings (settingsPut new s)) :=
  if_pos h

theorem running_of_takes {i : Instr} {x : Executing} {s : State} (h : Takes i x s) : s.running = true := by
  simp [State.running, h.1]

/-- What new settings change in a running part (R163). -/
theorem applySettings_eq {new : Settings} {s : State} (h : s.running = true) : applySettings new s = { s with
    settings := new
    siu := { moveMarks s.settings new s.siu with fill := (settingsPut new s).siu.fill }
    tbu := (holdoverLimitMoved s.settings (settingsPut new s)).tbu
    rpu := (holdoverLimitMoved s.settings (settingsPut new s)).rpu
    cmu := (holdoverLimitMoved s.settings (settingsPut new s)).cmu
    ina := (timersMoved s.settings (holdoverLimitMoved s.settings (settingsPut new s))).ina } := by
  rw [applySettings_running h, timersMoved_eq]
  generalize (timersMoved s.settings (holdoverLimitMoved s.settings (settingsPut new s))).ina = ina
  rw [holdoverLimitMoved_eq]
  generalize holdoverLimitMoved s.settings (settingsPut new s) = held
  rw [settingsPut_eq]

/-- SET_SETTINGS where its unit is ready (R161, R163). -/
theorem exec_setSettings {pairs : List (Nat × Nat)} {x : Executing} {s : State} (takes : Takes (.setSettings pairs) x s) :
    exec (.setSettings pairs) s = .next (endWhole x (changeSettings pairs s).1 (changeSettings pairs s).2) := by
  show execSetSettings pairs s = _
  rw [execSetSettings, wholeUnit_of_takes takes]

theorem changeSettings_accepted {pairs : List (Nat × Nat)} {s : State} (good : ∀ p ∈ pairs, badPair p = false)
    (accepted : marksAccepted s.siu s.settings (settingsAfter s.settings pairs) = true) : changeSettings pairs s =
    ({ WholeOutcome.taken with codes := pairs.map pairCode }, applySettings (settingsAfter s.settings pairs) s) := by
  simp [changeSettings, findIdx_badPair_none good, accepted]

theorem changeSettings_conflict {pairs : List (Nat × Nat)} {s : State} (good : ∀ p ∈ pairs, badPair p = false)
    (refused : ¬ marksAccepted s.siu s.settings (settingsAfter s.settings pairs) = true) :
    changeSettings pairs s = (.refused .pidConflict, s) := by
  simp [changeSettings, findIdx_badPair_none good, refused]

/-- Settles O45. -/
theorem setSettingsWhole : Obligations.SetSettingsWhole := by
  refine ⟨fun pairs x s takes => ⟨fun k p at_k bad first => ?_, fun valid => ⟨fun conflict => ?_, fun nodup free memory => ?_⟩⟩,
    fun t u pairs after => ⟨fun lawful defined => after ▸ settingsAfter_lawful lawful defined, fun k v a b split last => ?_,
      fun k unnamed => ?_⟩, ?_, ?_, fun v => rfl⟩
  · have named := findIdx_badPair_some at_k (badPair_iff.2 bad) fun j q hj hq => badPair_false_iff.2 (first j q hj hq)
    rw [exec_setSettings takes]
    simp [changeSettings, named]
  · have good : ∀ p ∈ pairs, badPair p = false := fun p hp => badPair_false_iff.2 (valid p hp)
    rw [exec_setSettings takes, changeSettings_conflict good]
    rw [marksAccepted_iff]
    rintro ⟨nodup, free⟩
    rcases conflict with twice | ⟨p, hp, unmarked, notPass, notDrop⟩
    · exact twice nodup
    · rcases free p hp with h | h | h
      · exact unmarked h
      · exact notPass h
      · exact notDrop h
  · have good : ∀ p ∈ pairs, badPair p = false := fun p hp => badPair_false_iff.2 (valid p hp)
    have whole := applySettings_eq (new := settingsAfter s.settings pairs) (running_of_takes takes)
    generalize hnew : settingsAfter s.settings pairs = new at nodup free whole ⊢
    have settings : (applySettings new s).settings = new := by rw [whole]
    have class' : ∀ q, (applySettings new s).siu.classOf q = (moveMarks s.settings new s.siu).classOf q := fun q => by
      rw [whole]; rfl
    have counter : ∀ q, counterOf (applySettings new s) q = (moveMarks s.settings new s.siu).counter q := fun q => by
      rw [whole]; rfl
    obtain ⟨-, moved⟩ := moveMarks_classOf s.settings new s.siu (pidMapWf memory)
    have zeroed := moveMarks_counter s.settings new s.siu (continuityWf memory)
    refine ⟨applySettings new s, ?_, settings, ?_, ?_, ?_, ?_, ?_, ?_⟩
    · rw [exec_setSettings takes, changeSettings_accepted good (by rw [hnew, marksAccepted_iff]; exact ⟨nodup, free⟩), hnew]
      rfl
    · intro p hp hn
      rw [settings] at hn
      obtain ⟨control, report, grant⟩ := not_mem_marks.1 hn
      simp [class', moved, hp, hn, control, report, grant]
    · intro p ho hn
      rw [settings] at hn
      obtain ⟨control, report, grant⟩ := not_mem_marks.1 hn
      simp [class', counter, moved, zeroed, ho, control, report, grant, counterOf_eq]
    all_goals obtain ⟨notReport, notGrant, apart⟩ := marks_nodup.1 nodup
    · intro changed
      rw [settings] at changed ⊢
      simp [class', moved, changed, notReport, notGrant]
    · intro changed
      rw [settings] at changed ⊢
      simp [class', counter, moved, zeroed, changed, apart]
    · intro changed
      rw [settings] at changed ⊢
      simp [class', counter, moved, zeroed, changed]
    · rw [whole]
  · have decided : ∀ i, k = i + 1 → i < 19 → u.values[i]? = some (storedValue (i + 1) (clampSetting (i + 1) v)) := by
      rintro i rfl hi
      rw [after, split]
      exact settingsAfter_last hi last
    refine ⟨?_, ?_, ?_, ?_, ?_, ?_, ?_, ?_, ?_, ?_, ?_, ?_, fun named => ?_, ?_, ?_, ?_, ?_, ?_, ?_⟩
    case refine_13 =>
      have := decided 12 named (by decide)
      exact code_injective (Option.some.inj this)
    all_goals
      intro named
      exact Option.some.inj (decided _ named (by decide))
  · have kept : ∀ i, k = i + 1 → i < 19 → u.values[i]? = t.values[i]? := by
      rintro i rfl hi
      rw [after]
      exact settingsAfter_unnamed hi unnamed
    refine ⟨?_, ?_, ?_, ?_, ?_, ?_, ?_, ?_, ?_, ?_, ?_, ?_, fun named => ?_, ?_, ?_, ?_, ?_, ?_, ?_⟩
    case refine_13 => exact code_injective (Option.some.inj (kept 12 named (by decide)))
    all_goals
      intro named
      exact Option.some.inj (kept _ named (by decide))
  · iterate 15 refine List.forall_mem_cons.2 ⟨fun _ => rfl, ?_⟩
    exact List.forall_mem_nil _
  · iterate 3 refine List.forall_mem_cons.2 ⟨fun _ => rfl, ?_⟩
    exact List.forall_mem_nil _

end Sys2Proof.Machine

/-! SUPPORT. What new settings do at once to Input Fill, the Timebase and the Insertion Arbiter's timers
(R11, R23, R125, R147, R148, R150, R151). -/

namespace Sys2Proof.Machine

/-! ## Input Fill and the holdover timer (R11, R23) -/

/-- Input Fill's progress under new settings: a new Fill Rate counts from the last slot created while fill runs (R11). -/
theorem settingsPut_fill (new : Settings) (s : State) : (settingsPut new s).siu.fill =
    if new.fillRate ≠ s.settings.fillRate ∧ s.siu.lock ≠ .locked then
      { elapsed := s.siu.fill.sinceLast, created := 0, sinceLast := s.siu.fill.sinceLast }
    else s.siu.fill := by
  have lock : (moveMarks s.settings new s.siu).lock = s.siu.lock := by rw [moveMarks_siu]
  have fill : (moveMarks s.settings new s.siu).fill = s.siu.fill := by rw [moveMarks_siu]
  unfold settingsPut fillRateMoved
  simp only [State.filling, lock, decide_eq_true_eq]
  split
  · simp only [fill]
  · exact fill

section Holdover
variable {old : Settings} {s : State}

/-- A Holdover Limit that is the same or not yet reached does nothing (R23). -/
theorem holdoverLimitMoved_idle (h : s.settings.holdoverLimit = old.holdoverLimit ∨ s.tbu.holdoverSince = none ∨
    ∃ a, s.tbu.holdoverSince = some a ∧ (s.tbu.tick - a).toNat < s.settings.holdoverLimit * 90) :
    holdoverLimitMoved old s = s := by
  unfold holdoverLimitMoved
  split
  · next changed =>
    have early : holdoverElapsed s = false := by
      unfold holdoverElapsed
      rcases h with same | stopped | ⟨a, since, early⟩
      · exact absurd same changed
      · rw [stopped]
      · rw [since]
        exact decide_eq_false (Nat.not_le.2 early)
    simp [holdoverLimitReached, early]
  · rfl

/-- A new Holdover Limit that is reached acts as the Timebase's state gives (R23). -/
theorem holdoverLimitMoved_reached {a : Tick} (changed : s.settings.holdoverLimit ≠ old.holdoverLimit)
    (since : s.tbu.holdoverSince = some a) (late : s.settings.holdoverLimit * 90 ≤ (s.tbu.tick - a).toNat) :
    (s.tbu.state = .tracking → holdoverLimitMoved old s = enterHoldover s) ∧
    (s.tbu.state = .holdover → holdoverLimitMoved old s = dropCandidate s) ∧
    (s.tbu.state = .noTime → holdoverLimitMoved old s = s) := by
  have elapsed : holdoverElapsed s = true := by
    unfold holdoverElapsed
    rw [since]
    exact decide_eq_true late
  refine ⟨fun state => ?_, fun state => ?_, fun state => ?_⟩ <;>
    simp [holdoverLimitMoved, changed, holdoverLimitReached, elapsed, state]

theorem streamTime_of_timed {t : Tbu} (h : t.state ≠ .noTime) :
    streamTime t = t.adoption.map fun a => a.value + (t.tick - a.tick) := by
  unfold streamTime
  cases state : t.state with
  | noTime => exact absurd state h
  | tracking => cases t.adoption <;> rfl
  | holdover => cases t.adoption <;> rfl

/-- HOLDOVER ENTERED carries the stream time that TRACKING presented (R18, R23). -/
theorem enterHoldover_reports (state : s.tbu.state = .tracking) : reports [.holdoverEntered] s (enterHoldover s) := by
  refine offer_reports_of_stamp _ rfl rfl ?_
  unfold State.stamp State.now
  rw [streamTime_of_timed (t := s.tbu) (by simp [state]), streamTime_of_timed (by simp)]

theorem enterHoldover_tbu (s : State) : (enterHoldover s).tbu =
    { s.tbu with state := .holdover, candidate := none, holdoverSince := none, holdoverSeen := true } := by
  simp [enterHoldover]

end Holdover

/-! ## The Insertion Arbiter's timers (R125, R148, R151) -/

/-- The pace timer and the credits once Grant Pace has gone from `old` to `new` (R150, R151). -/
def paceMoved (old new : Nat) (timer : Option Nat) (credits : Nat) : Option Nat × Nat :=
  if new = old then (timer, credits)
  else if new = 0 then (none, credits)
  else
    match timer with
    | none => (some 0, credits)
    | some n => if new * 9 ≤ n then (some 0, if credits < 2 then credits + 1 else credits) else (some n, credits)

section Pace
variable {old new n credits : Nat} {timer : Option Nat}

theorem paceMoved_same (same : new = old) : paceMoved old new timer credits = (timer, credits) := if_pos same

theorem paceMoved_off (changed : new ≠ old) (off : new = 0) : paceMoved old new timer credits = (none, credits) :=
  (if_neg changed).trans (if_pos off)

theorem paceMoved_starts (changed : new ≠ old) (on : new ≠ 0) : paceMoved old new none credits = (some 0, credits) :=
  (if_neg changed).trans (if_neg on)

theorem paceMoved_reached (changed : new ≠ old) (on : new ≠ 0) (late : new * 9 ≤ n) :
    paceMoved old new (some n) credits = (some 0, if credits < 2 then credits + 1 else credits) :=
  (if_neg changed).trans ((if_neg on).trans (if_pos late))

theorem paceMoved_early (changed : new ≠ old) (on : new ≠ 0) (early : n < new * 9) :
    paceMoved old new (some n) credits = (some n, credits) :=
  (if_neg changed).trans ((if_neg on).trans (if_neg (Nat.not_le.2 early)))

end Pace

/-- A repeat timer once a Word Message Interval of `limit` holds: expired where it has reached it (R125, R147). -/
def WordTimer.moved (limit : Nat) (now : Tick) (x : WordTimer) : WordTimer :=
  match x.timer with
  | some n => if limit * 90 ≤ n then { due := some (x.due.getD now), timer := some 0 } else x
  | none => x

theorem WordTimer.moved_stopped {limit : Nat} {now : Tick} {x : WordTimer} (h : x.timer = none) : x.moved limit now = x := by
  simp [WordTimer.moved, h]

theorem WordTimer.moved_running {limit n : Nat} {now : Tick} {x : WordTimer} (h : x.timer = some n) :
    (limit * 90 ≤ n → x.moved limit now = { due := some (x.due.getD now), timer := some 0 }) ∧
    (n < limit * 90 → x.moved limit now = x) := by
  unfold WordTimer.moved
  rw [h]
  exact ⟨fun late => if_pos late, fun early => if_neg (Nat.not_le.2 early)⟩

section Timers
variable (old : Settings) (s : State)

theorem grantPaceMoved_ina : (grantPaceMoved old s).ina = { s.ina with
    paceTimer := (paceMoved old.grantPace s.settings.grantPace s.ina.paceTimer s.ina.credits).1
    credits := (paceMoved old.grantPace s.settings.grantPace s.ina.paceTimer s.ina.credits).2 } := by
  unfold grantPaceMoved paceMoved
  split
  · rfl
  split
  · rfl
  cases h : s.ina.paceTimer with
  | none => rfl
  | some n =>
    dsimp only
    split
    · rfl
    · simp [← h]

theorem statusIntervalMoved_ina : (statusIntervalMoved old s).ina =
    if s.settings.statusInterval ≠ old.statusInterval ∧ s.settings.statusInterval * 90 ≤ s.ina.statusTimer then
      { s.ina with statusDue := true, statusTimer := 0 }
    else s.ina := apply_ite State.ina ..

theorem wordTimerMoved_wordTimer (m n : SlotId) : (wordTimerMoved m s).wordTimer n =
    if n = m then (s.wordTimer m).moved s.settings.wordInterval s.tbu.tick else s.wordTimer n := by
  have same : (if n = m then s.wordTimer m else s.wordTimer n) = s.wordTimer n := by
    split
    · rw [‹n = m›]
    · rfl
  unfold wordTimerMoved
  cases h : (s.wordTimer m).timer with
  | none => rw [WordTimer.moved_stopped h, same]
  | some k =>
    obtain ⟨late, early⟩ := WordTimer.moved_running (limit := s.settings.wordInterval) (now := s.tbu.tick) h
    dsimp only
    split
    · next reached =>
      rw [late reached, setWordTimer_wordTimer]
      cases (s.wordTimer m).due <;> rfl
    · next notReached => rw [early (Nat.not_le.1 notReached), same]

/-- A repeat timer's change is one of the Word Messages alone. -/
theorem wordTimerMoved_ina (m : SlotId) :
    (wordTimerMoved m s).ina = { s.ina with words := (wordTimerMoved m s).ina.words } := by
  unfold wordTimerMoved
  split
  · split <;> rfl
  · rfl

theorem wordIntervalMoved_ina :
    (wordIntervalMoved old s).ina = { s.ina with words := (wordIntervalMoved old s).ina.words } := by
  unfold wordIntervalMoved
  split
  · exact List.foldlRecOn slotList (fun t m => wordTimerMoved m t)
      (motive := fun t => t.ina = { s.ina with words := t.ina.words }) rfl fun t ht m _ => by
        rw [wordTimerMoved_ina]
        generalize (wordTimerMoved m t).ina.words = words
        rw [ht]
  · rfl

theorem wordIntervalMoved_wordTimer (m : SlotId) : (wordIntervalMoved old s).wordTimer m =
    if s.settings.wordInterval ≠ old.wordInterval then (s.wordTimer m).moved s.settings.wordInterval s.tbu.tick
    else s.wordTimer m := by
  unfold wordIntervalMoved
  split
  · refine foldl_slots State.wordTimer (fun t => t.settings = s.settings ∧ t.tbu = s.tbu) (fun t m => wordTimerMoved m t)
      (fun _ x => x.moved s.settings.wordInterval s.tbu.tick) ?_ ?_ ?_ s m ⟨rfl, rfl⟩
    · rintro t n ⟨settings, tbu⟩
      rw [wordTimerMoved_eq]
      exact ⟨settings, tbu⟩
    · rintro t n ⟨settings, tbu⟩
      rw [wordTimerMoved_wordTimer, if_pos rfl, settings, tbu]
    · intro t n k _ hk
      rw [wordTimerMoved_wordTimer, if_neg hk]
  · rfl

/-- What new settings do to the arbiter's timers, the Word Messages apart (R148, R150, R151). -/
theorem timersMoved_ina : (timersMoved old s).ina = { s.ina with
    words := (timersMoved old s).ina.words
    statusDue := (statusIntervalMoved old s).ina.statusDue
    statusTimer := (statusIntervalMoved old s).ina.statusTimer
    paceTimer := (paceMoved old.grantPace s.settings.grantPace s.ina.paceTimer s.ina.credits).1
    credits := (paceMoved old.grantPace s.settings.grantPace s.ina.paceTimer s.ina.credits).2 } := by
  have settings : (statusIntervalMoved old s).settings = s.settings := by rw [statusIntervalMoved_eq]
  unfold timersMoved
  rw [wordIntervalMoved_ina, grantPaceMoved_ina, settings, statusIntervalMoved_ina]
  split <;> rfl

theorem timersMoved_wordTimer (m : SlotId) : (timersMoved old s).wordTimer m =
    if s.settings.wordInterval ≠ old.wordInterval then (s.wordTimer m).moved s.settings.wordInterval s.tbu.tick
    else s.wordTimer m := by
  have words : (grantPaceMoved old (statusIntervalMoved old s)).wordTimer m = s.wordTimer m := by
    simp only [State.wordTimer, grantPaceMoved_ina, statusIntervalMoved_ina]
    split <;> rfl
  unfold timersMoved
  rw [wordIntervalMoved_wordTimer, words, grantPaceMoved_eq, statusIntervalMoved_eq]

end Timers

/-- What the Timebase does about a new Holdover Limit (R23), from any state that differs from s in other blocks. -/
theorem holdoverLimitMoved_spec {old : Settings} {s t : State} (tbu : t.tbu = s.tbu) (rpu : t.rpu = s.rpu)
    (cmu : t.cmu = s.cmu) :
    (∀ a, t.settings.holdoverLimit ≠ old.holdoverLimit → s.tbu.holdoverSince = some a →
      t.settings.holdoverLimit * 90 ≤ (s.tbu.tick - a).toNat →
      (s.tbu.state = .tracking → reports [.holdoverEntered] s (holdoverLimitMoved old t) ∧
        (holdoverLimitMoved old t).tbu = { s.tbu with
          state := .holdover, candidate := none, holdoverSince := none, holdoverSeen := true }) ∧
      (s.tbu.state = .holdover → reports [] s (holdoverLimitMoved old t) ∧
        (holdoverLimitMoved old t).tbu = { s.tbu with candidate := none, holdoverSince := none }) ∧
      (s.tbu.state = .noTime → reports [] s (holdoverLimitMoved old t) ∧ (holdoverLimitMoved old t).tbu = s.tbu)) ∧
    ((t.settings.holdoverLimit = old.holdoverLimit ∨ s.tbu.holdoverSince = none ∨
        ∃ a, s.tbu.holdoverSince = some a ∧ (s.tbu.tick - a).toNat < t.settings.holdoverLimit * 90) →
      reports [] s (holdoverLimitMoved old t) ∧ (holdoverLimitMoved old t).tbu = s.tbu) := by
  refine ⟨fun a changed since late => ?_, fun idle => ?_⟩
  · rw [← tbu] at since late ⊢
    obtain ⟨tracking, holdover, noTime⟩ := holdoverLimitMoved_reached changed since late
    refine ⟨fun state => ?_, fun state => ?_, fun state => ?_⟩
    · rw [tracking state]
      exact ⟨reports_of (enterHoldover_reports state) rpu cmu tbu, enterHoldover_tbu t⟩
    · rw [holdover state]
      exact ⟨⟨rpu, cmu⟩, rfl⟩
    · rw [noTime state]
      exact ⟨⟨rpu, cmu⟩, rfl⟩
  · rw [← tbu] at idle ⊢
    rw [holdoverLimitMoved_idle idle]
    exact ⟨⟨rpu, cmu⟩, rfl⟩

/-- Settles O46. -/
theorem settingsActAtOnce : Obligations.SettingsActAtOnce := by
  intro pairs x s new takes after valid nodup free
  have good : ∀ p ∈ pairs, badPair p = false := fun p hp => badPair_false_iff.2 (valid p hp)
  have accepted : marksAccepted s.siu s.settings (settingsAfter s.settings pairs) = true :=
    marksAccepted_iff.2 ⟨after ▸ nodup, after ▸ free⟩
  have whole := applySettings_eq (new := new) (running_of_takes takes)
  have ina := timersMoved_ina s.settings (holdoverLimitMoved s.settings (settingsPut new s))
  have words := timersMoved_wordTimer s.settings (holdoverLimitMoved s.settings (settingsPut new s))
  have status := statusIntervalMoved_ina s.settings (holdoverLimitMoved s.settings (settingsPut new s))
  have fill := settingsPut_fill new s
  have put := settingsPut_eq new s
  obtain ⟨-, -, heldIna, heldSettings, heldTick⟩ := holdoverLimitMoved_frame s.settings (settingsPut new s)
  have putSettings : (settingsPut new s).settings = new := by rw [put]
  have putIna : (settingsPut new s).ina = s.ina := by rw [put]
  have putTbu : (settingsPut new s).tbu = s.tbu := by rw [put]
  have holdover := holdoverLimitMoved_spec (old := s.settings) putTbu (by rw [put]) (by rw [put])
  rw [putSettings] at heldSettings holdover
  rw [putIna] at heldIna
  rw [putTbu] at heldTick
  generalize holdoverLimitMoved s.settings (settingsPut new s) = held at *
  generalize timersMoved s.settings held = timed at *
  have wordTimer : ∀ m, (applySettings new s).wordTimer m = if new.wordInterval ≠ s.settings.wordInterval then
      (s.wordTimer m).moved new.wordInterval s.tbu.tick else s.wordTimer m := fun m => by
    have timer := words m
    rw [heldSettings, heldTick, wordTimer_of_ina heldIna] at timer
    rw [← timer, whole]
    rfl
  rw [heldIna, heldSettings] at status ina
  have exec_eq : exec (.setSettings pairs) s =
      .next (endWhole x { WholeOutcome.taken with codes := pairs.map pairCode } (applySettings new s)) := by
    rw [exec_setSettings takes, changeSettings_accepted good accepted, ← after]
  have fillU : (applySettings new s).siu.fill = (settingsPut new s).siu.fill := by rw [whole]
  have tbuU : (applySettings new s).tbu = held.tbu := by rw [whole]
  have reportsU : ∀ l, reports l s held → reports l s (applySettings new s) := by
    rintro l ⟨rpu, cmu⟩
    rw [whole]
    exact ⟨rpu, cmu⟩
  have inaU : (applySettings new s).ina = timed.ina := by rw [whole]
  rw [fill] at fillU
  rw [ina, status] at inaU
  obtain ⟨reached, idle⟩ := holdover
  refine ⟨applySettings new s, pairs.map pairCode, exec_eq, by rw [whole], fun changed lock => ?_, fun same => ?_,
    fun a changed since late => ?_, fun unreached => ?_, fun changed late => ?_, fun same => ?_, fun same => ?_,
    fun changed => ⟨fun off => ?_, fun on stopped => ?_, fun n on runs => ⟨fun late => ?_, fun early => ?_⟩⟩, ?_,
    fun m => ⟨fun same => ?_, fun n runs changed => ⟨fun late => ?_, fun early => ?_⟩⟩⟩
  · rw [fillU, if_pos ⟨changed, lock⟩]
  · rw [fillU, if_neg (fun both => same.elim both.1 both.2)]
  · obtain ⟨tracking, held', noTime⟩ := reached a changed since late
    rw [tbuU]
    exact ⟨fun state => (tracking state).imp_left (reportsU _), fun state => (held' state).imp_left (reportsU _),
      fun state => (noTime state).imp_left (reportsU _)⟩
  · rw [tbuU]
    exact (idle unreached).imp_left (reportsU _)
  · rw [inaU, if_pos ⟨changed, late⟩]
    exact ⟨rfl, rfl⟩
  · rw [inaU, if_neg (fun both => same.elim both.1 (Nat.not_lt.2 both.2))]
    exact ⟨rfl, rfl⟩
  · rw [inaU, paceMoved_same same]
    exact ⟨rfl, rfl⟩
  · rw [inaU, paceMoved_off changed off]
    exact ⟨rfl, rfl⟩
  · rw [inaU, stopped, paceMoved_starts changed on]
    exact ⟨rfl, rfl⟩
  · rw [inaU, runs, paceMoved_reached changed on late]
    exact ⟨rfl, rfl⟩
  · rw [inaU, runs, paceMoved_early changed on early]
    exact ⟨rfl, rfl⟩
  · rw [inaU]
  · rw [wordTimer]
    rcases same with stopped | same
    · rw [WordTimer.moved_stopped stopped, ite_self]
    · exact if_neg (not_not_intro same)
  · rw [wordTimer, if_pos changed]
    exact (WordTimer.moved_running runs).1 late
  · rw [wordTimer, if_pos changed]
    exact (WordTimer.moved_running runs).2 early

end Sys2Proof.Machine

/-! SUPPORT. Credit and prices: the credit-addition rule, and what a purchase is charged (R79 to R82, R85). -/

namespace Sys2Proof.Machine

/-! ## The credit-addition rule (R85) -/

section Credit
variable {cap credit amount new : Nat} {capped : Bool}

theorem addCredit_above (h : cap ≤ credit) : addCredit cap credit amount = (credit, decide (0 < amount)) := if_pos h

theorem addCredit_fits (below : credit < cap) (fits : credit + amount ≤ cap) :
    addCredit cap credit amount = (credit + amount, false) := by
  rw [addCredit, if_neg (by omega), if_pos fits]

theorem addCredit_capped (below : credit < cap) (exceeds : cap < credit + amount) :
    addCredit cap credit amount = (cap, true) := by
  rw [addCredit, if_neg (by omega), if_neg (by omega)]

/-- The three cases of the rule. -/
theorem addCredit_cases (h : addCredit cap credit amount = (new, capped)) :
    (cap ≤ credit ∧ new = credit ∧ capped = decide (0 < amount)) ∨
    (credit < cap ∧ credit + amount ≤ cap ∧ new = credit + amount ∧ capped = false) ∨
    (credit < cap ∧ cap < credit + amount ∧ new = cap ∧ capped = true) := by
  rcases Nat.lt_or_ge credit cap with below | above
  · rcases Nat.lt_or_ge cap (credit + amount) with exceeds | fits
    · obtain ⟨rfl, rfl⟩ := Prod.mk.inj ((addCredit_capped below exceeds).symm.trans h)
      exact .inr (.inr ⟨below, exceeds, rfl, rfl⟩)
    · obtain ⟨rfl, rfl⟩ := Prod.mk.inj ((addCredit_fits below fits).symm.trans h)
      exact .inr (.inl ⟨below, fits, rfl, rfl⟩)
  · obtain ⟨rfl, rfl⟩ := Prod.mk.inj ((addCredit_above above).symm.trans h)
    exact .inl ⟨above, rfl, rfl⟩

/-- The new credit is at most the larger of the old credit and the cap. -/
theorem addCredit_le (cap credit amount : Nat) : (addCredit cap credit amount).1 ≤ max credit cap := by
  rcases addCredit_cases (Prod.eta (addCredit cap credit amount)).symm with
    ⟨_, new, _⟩ | ⟨_, _, new, _⟩ | ⟨_, _, new, _⟩ <;> omega

/-- The credit that a record keeps is the rule's, a cap being no wider than the field. -/
theorem credited_credit (q : RecordImage) (hcap : cap ≤ 65535) :
    (q.credited cap amount).credit.toNat = (addCredit cap q.credit.toNat amount).1 := by
  have bound := addCredit_le cap q.credit.toNat amount
  have width := q.credit.isLt
  exact (BitVec.toNat_ofNat ..).trans (Nat.mod_eq_of_lt (by omega))

end Credit

/-- A charge that the credit does not cover is refused (R84). -/
theorem buySeat_uncovered {seat charge : Nat} {m : SlotId} {r : RowImage} {q : RecordImage} {s : State}
    (h : q.credit.toNat < charge) : buySeat seat m charge r q s = (⟨.noCredit, 0⟩, s) := if_pos h

/-- A refund answers with the credit that was really added (R89). -/
theorem refundChecks_value {seat : Nat} {m : SlotId} {r : RowImage} {q : RecordImage} {s : State}
    (refundable : (s.slot m).state.refundable = true) (held : r.holds m (memberOf seat) = true) :
    (refundChecks seat m r q s).1.value =
      (addCredit s.settings.creditCap q.credit.toNat (q.paid.get m).toNat).1 - q.credit.toNat := by
  rw [refundChecks, refundable, held]
  rfl

/-- Settles O39: every clause of the law is read off the three cases of the rule. -/
theorem creditAdditionLaw : Obligations.CreditAdditionLaw := by
  refine ⟨fun cap credit amount new capped h => ?_, fun q cap amount new capped hcap h => ?_, fun _ _ _ => rfl,
    fun seat amount m r q s => ⟨rfl, refundChecks_value⟩, fun _ _ _ _ _ _ => buySeat_uncovered⟩
  · rcases addCredit_cases h with ⟨above, rfl, rfl⟩ | ⟨below, fits, rfl, rfl⟩ | ⟨below, exceeds, rfl, rfl⟩ <;> grind
  · refine ⟨by rw [credited_credit q hcap, h], rfl, ?_, ?_⟩ <;>
    · rintro rfl
      simp only [RecordImage.credited, h]
      rfl

/-! ## Prices (R79 to R82) -/

theorem chargeOf_comp (m : SlotId) (rec : MatchRecord) (s : State) : chargeOf true m rec s = .ok 0 := rfl

theorem chargeOf_normal (m : SlotId) (rec : MatchRecord) (s : State) :
    chargeOf false m rec s = normalCharge (s.slot m).state rec s.now := rfl

/-- The elapsed time: the distance from show start, clamped to 0 and the scheduled length (R80). -/
theorem lateElapsed_eq (rec : MatchRecord) (t : StreamTime) : lateElapsed rec t =
    if signedDistance rec.showStart t ≤ 0 then 0
    else if ((rec.scheduledLen * 90000 : Nat) : Int) ≤ signedDistance rec.showStart t then rec.scheduledLen * 90000
    else (signedDistance rec.showStart t).toNat := by
  unfold lateElapsed
  split
  · omega
  · split <;> omega

/-- A quotient rounded up is the least number whose multiple reaches the dividend. -/
theorem roundUp_bounds (a : Nat) {L : Nat} (hL : 0 < L) : a ≤ (a + L - 1) / L * L ∧ (a + L - 1) / L * L < a + L := by
  have parts := Nat.div_add_mod' (a + L - 1) L
  have rest := Nat.mod_lt (a + L - 1) hL
  omega

section Late
variable (rec : MatchRecord)

/-- The part of the standard price that the time left to scheduled end costs, rounded up to a whole unit (R80). -/
def lateShare (e : Nat) : Nat :=
  (rec.standardPrice * (rec.scheduledLen * 90000 - e) + rec.scheduledLen * 90000 - 1) / (rec.scheduledLen * 90000)

theorem lateCharge_eq (e : Nat) : lateCharge rec e = max (lateShare rec e) rec.lateFloor := rfl

theorem lateShare_antitone {e f : Nat} (later : e ≤ f) : lateShare rec f ≤ lateShare rec e := by
  have left : rec.standardPrice * (rec.scheduledLen * 90000 - f) ≤ rec.standardPrice * (rec.scheduledLen * 90000 - e) :=
    Nat.mul_le_mul_left _ (by omega)
  exact Nat.div_le_div_right (by omega)

theorem lateCharge_antitone {e f : Nat} (later : e ≤ f) : lateCharge rec f ≤ lateCharge rec e := by
  have share := lateShare_antitone rec later
  simp only [lateCharge_eq]
  omega

variable {rec}

/-- At show start the whole standard price is left. -/
theorem lateShare_start (long : 0 < rec.scheduledLen) : lateShare rec 0 = rec.standardPrice := by
  have positive : 0 < rec.scheduledLen * 90000 := by omega
  rw [lateShare, Nat.sub_zero, Nat.add_sub_assoc positive, Nat.mul_comm, Nat.mul_add_div positive,
    Nat.div_eq_of_lt (by omega), Nat.add_zero]

/-- At scheduled end nothing of it is left. -/
theorem lateShare_end (long : 0 < rec.scheduledLen) : lateShare rec (rec.scheduledLen * 90000) = 0 := by
  rw [lateShare, Nat.sub_self, Nat.mul_zero, Nat.zero_add]
  exact Nat.div_eq_of_lt (by omega)

end Late

/-- In LIVE the late charge is asked up to late_cutoff, that tick included, and nothing is sold after it (R80, R81). -/
theorem chargeOf_live {m : SlotId} {rec : MatchRecord} {s : State} {t : StreamTime} (now : s.now = some t)
    (live : (s.slot m).state = .live) : chargeOf false m rec s =
      if rec.lateCutoff * 90000 < lateElapsed rec t then .error .saleClosed
      else .ok (lateCharge rec (lateElapsed rec t)) := by
  rw [chargeOf_normal, live, now]
  rfl

/-- Before early_close ON_SALE asks the early price, from it on the standard price (R79). -/
theorem chargeOf_onSale {m : SlotId} {rec : MatchRecord} {s : State} {t : StreamTime} (now : s.now = some t)
    (onSale : (s.slot m).state = .onSale) : chargeOf false m rec s =
      .ok (if reached rec.earlyClose t then rec.standardPrice else rec.earlyPrice) := by
  rw [chargeOf_normal, onSale, now]
  rfl

theorem chargeOf_noTime {m : SlotId} {rec : MatchRecord} {s : State} (now : s.now = none)
    (timed : (s.slot m).state = .onSale ∨ (s.slot m).state = .live) : chargeOf false m rec s = .error .noTime := by
  rcases timed with state | state <;> rw [chargeOf_normal, state, now] <;> rfl

/-- PREVIEW asks the standard price, with stream time or without it (R79). -/
theorem chargeOf_preview {m : SlotId} {rec : MatchRecord} {s : State} (preview : (s.slot m).state = .preview) :
    chargeOf false m rec s = .ok rec.standardPrice := by
  rw [chargeOf_normal, preview]
  rfl

/-- Settles O36: the late charge is the rounded share of the time left, which only falls, held up by the late floor. -/
theorem purchasePrice : Obligations.PurchasePrice := by
  refine ⟨fun m rec s => ⟨chargeOf_comp m rec s, chargeOf_preview, fun timed now => chargeOf_noTime now timed,
    fun t now => ⟨fun onSale early => ?_, fun onSale late => ?_, ?_⟩⟩, fun rec long low => ?_⟩
  · simp [chargeOf_onSale now onSale, early]
  · simp [chargeOf_onSale now onSale, late]
  · rintro e L rfl positive elapsed live
    rw [← lateElapsed_eq] at elapsed
    subst elapsed
    rw [chargeOf_live now live]
    refine ⟨fun late => if_pos late, fun inTime => ⟨_, lateShare rec (lateElapsed rec t), if_neg (Nat.not_lt.2 inTime),
      lateCharge_eq .., roundUp_bounds _ positive⟩⟩
  · have atStart : lateCharge rec 0 = rec.standardPrice := by rw [lateCharge_eq, lateShare_start long, Nat.max_eq_left low]
    have atEnd : lateCharge rec (rec.scheduledLen * 90000) = rec.lateFloor := by
      rw [lateCharge_eq, lateShare_end long, Nat.zero_max]
    exact ⟨atStart, atEnd, fun e => ⟨Nat.le_max_right .., atStart ▸ lateCharge_antitone rec (Nat.zero_le e),
      fun f later => lateCharge_antitone rec later⟩⟩

end Sys2Proof.Machine

/-! SUPPORT. Seat items: the checks that each of them makes and what it reads, and the items that write the row alone
(R51, R77, R78, R93 to R95). -/

namespace Sys2Proof.Machine

/-! ## The checks of every seat item (R51, R77) -/

section Checks
variable {seat : Nat} {x : Executing} {s u v : State}

/-- Check 2 of R77: the seat is in range. -/
theorem seatRefusal_outOfRange (h : s.settings.activeCohorts * 32 ≤ seat) : seatRefusal seat s = some .outOfRange := if_pos h

/-- Check 3 of R77: the store is not in CLEARING. -/
theorem seatRefusal_clearing (inRange : seat < s.settings.activeCohorts * 32) (clearing : s.sst.store = .clearing) :
    seatRefusal seat s = some .storeNotReady := by
  rw [seatRefusal, if_neg (Nat.not_le.2 inRange), if_pos clearing]

theorem seatRefusal_none (inRange : seat < s.settings.activeCohorts * 32) (notClearing : s.sst.store ≠ .clearing) :
    seatRefusal seat s = none := by
  rw [seatRefusal, if_neg (Nat.not_le.2 inRange), if_neg notClearing]

section Row
variable {f : RowImage → State → CodeValue × State} {row : Option RowImage}

theorem withRow_refused {c : ItemCode} (h : seatRefusal seat s = some c) : withRow seat f s = (⟨c, 0⟩, s) := by
  rw [withRow, h]
  rfl

/-- An item of the row alone, past checks 2 and 3: its read, then checks 5 and 6 (R77). -/
theorem withRow_read (checked : seatRefusal seat s = none) (read : readRow (seat / 32) s = (row, u)) :
    (u.sst.store = .failed → withRow seat f s = (⟨.storeFailed, 0⟩, u)) ∧
    (u.sst.store ≠ .failed → row = none → withRow seat f s = (⟨.rowPoisoned, 0⟩, u)) := by
  refine ⟨fun failed => ?_, fun sound nothing => ?_⟩
  · simp only [withRow, checked, read, if_pos failed]
    rfl
  · simp only [withRow, checked, read, if_neg sound, nothing]
    rfl

end Row

section Record
variable {f : RecordImage → State → CodeValue × State} {q : Option RecordImage}

theorem withRecord_refused {c : ItemCode} (h : seatRefusal seat s = some c) : withRecord seat f s = (⟨c, 0⟩, s) := by
  rw [withRecord, h]
  rfl

/-- An item of the record alone, past checks 2 and 3: its read, then checks 5 and 6 (R77). -/
theorem withRecord_read (checked : seatRefusal seat s = none) (read : readRecord seat s = (q, v)) :
    (v.sst.store = .failed → withRecord seat f s = (⟨.storeFailed, 0⟩, v)) ∧
    (v.sst.store ≠ .failed → q = none → withRecord seat f s = (⟨.rowPoisoned, 0⟩, v)) := by
  refine ⟨fun failed => ?_, fun sound nothing => ?_⟩
  · simp only [withRecord, checked, read, if_pos failed]
    rfl
  · simp only [withRecord, checked, read, if_neg sound, nothing]
    rfl

end Record

section Both
variable {f : RowImage → RecordImage → State → CodeValue × State} {row : Option RowImage} {q : Option RecordImage}

theorem withBoth_refused {c : ItemCode} (h : seatRefusal seat s = some c) : withBoth seat f s = (⟨c, 0⟩, s) := by
  rw [withBoth, h]
  rfl

/-- An item of row and record, past checks 2 and 3: its reads, the row first, then checks 5 and 6 (R77, R78). -/
theorem withBoth_read (checked : seatRefusal seat s = none) (readFirst : readRow (seat / 32) s = (row, u))
    (readNext : readRecord seat u = (q, v)) :
    (v.sst.store = .failed → withBoth seat f s = (⟨.storeFailed, 0⟩, v)) ∧
    (v.sst.store ≠ .failed → row = none ∨ q = none → withBoth seat f s = (⟨.rowPoisoned, 0⟩, v)) := by
  refine ⟨fun failed => ?_, fun sound nothing => ?_⟩
  · simp only [withBoth, checked, readFirst, readNext, if_pos failed]
    rfl
  · simp only [withBoth, checked, readFirst, readNext, if_neg sound]
    rcases nothing with rfl | rfl
    · rfl
    · cases row <;> rfl

end Both

/-! ## The rows that are seat items (R77) -/

theorem exec_purchase {slot mode : Nat} (takes : Takes (.purchase seat slot mode) x s) :
    exec (.purchase seat slot mode) s =
      .next (endItem x (purchaseItem seat slot mode s).1 (purchaseItem seat slot mode s).2) :=
  congrArg Host.Outcome.next (itemUnit_of_takes takes _)

theorem exec_refund {slot : Nat} (takes : Takes (.refund seat slot) x s) :
    exec (.refund seat slot) s = .next (endItem x (refundItem seat slot s).1 (refundItem seat slot s).2) :=
  congrArg Host.Outcome.next (itemUnit_of_takes takes _)

theorem exec_withdraw {slot : Nat} (takes : Takes (.withdraw seat slot) x s) :
    exec (.withdraw seat slot) s = .next (endItem x (withdrawItem seat slot s).1 (withdrawItem seat slot s).2) :=
  congrArg Host.Outcome.next (itemUnit_of_takes takes _)

theorem exec_suspend (takes : Takes (.suspend seat) x s) : exec (.suspend seat) s =
    .next (endItem x (withRow seat (suspendChecks seat) s).1 (withRow seat (suspendChecks seat) s).2) :=
  congrArg Host.Outcome.next (itemUnit_of_takes takes _)

theorem exec_resume (takes : Takes (.resume seat) x s) : exec (.resume seat) s =
    .next (endItem x (withRow seat (resumeChecks seat) s).1 (withRow seat (resumeChecks seat) s).2) :=
  congrArg Host.Outcome.next (itemUnit_of_takes takes _)

theorem exec_setRegion {g : BitVec 8} (takes : Takes (.setRegion seat g) x s) : exec (.setRegion seat g) s =
    .next (endItem x (withRow seat (regionChecks seat g) s).1 (withRow seat (regionChecks seat g) s).2) :=
  congrArg Host.Outcome.next (itemUnit_of_takes takes _)

theorem exec_topUpCredit {amount : Nat} (takes : Takes (.topUpCredit seat amount) x s) : exec (.topUpCredit seat amount) s =
    .next (endItem x (withRecord seat (topUpChecks seat amount) s).1 (withRecord seat (topUpChecks seat amount) s).2) :=
  congrArg Host.Outcome.next (itemUnit_of_takes takes _)

theorem exec_clearSeatMarks (takes : Takes (.clearSeatMarks seat) x s) : exec (.clearSeatMarks seat) s =
    .next (endItem x (withRecord seat (clearMarkChecks seat) s).1 (withRecord seat (clearMarkChecks seat) s).2) :=
  congrArg Host.Outcome.next (itemUnit_of_takes takes _)

/-- Check 1 of R77 on a slot and a mode. -/
theorem purchaseItem_badField {slot mode : Nat} (bad : 15 < slot ∨ 1 < mode) :
    purchaseItem seat slot mode s = (⟨.badField, 0⟩, s) := by
  unfold purchaseItem
  split
  · rfl
  · next m named =>
    have inside : slot ≤ 15 := by
      refine Nat.le_of_not_lt fun above => ?_
      rw [slotOf_above above] at named
      contradiction
    exact if_pos (bad.resolve_left (Nat.not_lt.2 inside))

/-- A PURCHASE whose fields are good goes on to its reads. -/
theorem purchaseItem_named {mode : Nat} (m : SlotId) (good : mode ≤ 1) :
    purchaseItem seat m.val mode = withBoth seat (purchaseChecks seat m (decide (mode = 1))) := by
  funext s
  rw [purchaseItem, slotOf_val]
  exact if_neg (Nat.not_lt.2 good)

theorem refundItem_badField {slot : Nat} (bad : 15 < slot) : refundItem seat slot s = (⟨.badField, 0⟩, s) := by
  rw [refundItem, slotOf_above bad]
  rfl

theorem refundItem_named (m : SlotId) : refundItem seat m.val = withBoth seat (refundChecks seat m) := by
  funext s
  rw [refundItem, slotOf_val]

theorem withdrawItem_badField {slot : Nat} (bad : 15 < slot) : withdrawItem seat slot s = (⟨.badField, 0⟩, s) := by
  rw [withdrawItem, slotOf_above bad]
  rfl

theorem withdrawItem_named (m : SlotId) : withdrawItem seat m.val = withBoth seat (withdrawChecks seat m) := by
  funext s
  rw [withdrawItem, slotOf_val]

/-- PURCHASE, REFUND and WITHDRAW with good fields read row and record (R78). -/
def ReadsBoth (seat : Nat) (i : Instr) : Prop :=
  (∃ slot mode, slot ≤ 15 ∧ mode ≤ 1 ∧ i = .purchase seat slot mode) ∨
    ∃ slot, slot ≤ 15 ∧ (i = .refund seat slot ∨ i = .withdraw seat slot)

/-- SUSPEND, RESUME and SET_REGION read the row alone (R78). -/
def ReadsRow (seat : Nat) (i : Instr) : Prop := i = .suspend seat ∨ i = .resume seat ∨ ∃ g, i = .setRegion seat g

/-- TOP_UP_CREDIT and CLEAR_SEAT_MARKS read the record alone (R78). -/
def ReadsRecord (seat : Nat) (i : Instr) : Prop := (∃ n, i = .topUpCredit seat n) ∨ i = .clearSeatMarks seat

section Kinds
variable {i : Instr}

theorem exec_readsBoth (takes : Takes i x s) (both : ReadsBoth seat i) :
    ∃ f, exec i s = .next (endItem x (withBoth seat f s).1 (withBoth seat f s).2) := by
  rcases both with ⟨slot, mode, named, good, rfl⟩ | ⟨slot, named, rfl | rfl⟩
  · exact ⟨_, purchaseItem_named ⟨slot, by omega⟩ good ▸ exec_purchase takes⟩
  · exact ⟨_, refundItem_named ⟨slot, by omega⟩ ▸ exec_refund takes⟩
  · exact ⟨_, withdrawItem_named ⟨slot, by omega⟩ ▸ exec_withdraw takes⟩

theorem exec_readsRow (takes : Takes i x s) (rowOnly : ReadsRow seat i) :
    ∃ f, exec i s = .next (endItem x (withRow seat f s).1 (withRow seat f s).2) := by
  rcases rowOnly with rfl | rfl | ⟨g, rfl⟩
  · exact ⟨_, exec_suspend takes⟩
  · exact ⟨_, exec_resume takes⟩
  · exact ⟨_, exec_setRegion takes⟩

theorem exec_readsRecord (takes : Takes i x s) (recordOnly : ReadsRecord seat i) :
    ∃ f, exec i s = .next (endItem x (withRecord seat f s).1 (withRecord seat f s).2) := by
  rcases recordOnly with ⟨n, rfl⟩ | rfl
  · exact ⟨_, exec_topUpCredit takes⟩
  · exact ⟨_, exec_clearSeatMarks takes⟩

/-- An item that checks 2 and 3 of R77 refuse, whichever reads it would have made. -/
theorem exec_refused {c : ItemCode} (takes : Takes i x s) (refused : seatRefusal seat s = some c)
    (item : ReadsBoth seat i ∨ ReadsRow seat i ∨ ReadsRecord seat i) : exec i s = .next (endItem x ⟨c, 0⟩ s) := by
  rcases item with both | rowOnly | recordOnly
  · obtain ⟨f, run⟩ := exec_readsBoth takes both
    rw [run, withBoth_refused refused]
  · obtain ⟨f, run⟩ := exec_readsRow takes rowOnly
    rw [run, withRow_refused refused]
  · obtain ⟨f, run⟩ := exec_readsRecord takes recordOnly
    rw [run, withRecord_refused refused]

end Kinds

end Checks

/-- Settles O34: each item is `withBoth`, `withRow` or `withRecord` of its own checks, and those three make the checks of R77. -/
theorem seatItemChecks : Obligations.SeatItemChecks := by
  refine ⟨fun i seat x s both rowOnly recordOnly takes isBoth isRow isRecord => ⟨?_, ?_, fun item => ?_,
    fun inRange notClearing => ?_⟩, fun c seat s notClearing =>
      ⟨readRow_poisoned, readRow_readable notClearing, readRecord_poisoned, readRecord_readable notClearing⟩⟩
  · rintro slot mode bad rfl
    rw [exec_purchase takes, purchaseItem_badField bad]
  · rintro slot bad (rfl | rfl)
    · rw [exec_refund takes, refundItem_badField bad]
    · rw [exec_withdraw takes, withdrawItem_badField bad]
  · rw [isBoth, isRow, isRecord] at item
    exact ⟨fun outside => exec_refused takes (seatRefusal_outOfRange outside) item,
      fun inRange clearing => exec_refused takes (seatRefusal_clearing inRange clearing) item⟩
  · have checked := seatRefusal_none inRange notClearing
    refine ⟨fun row q u v item readFirst readNext => ?_, fun row u item read => ?_, fun q v item read => ?_⟩
    · obtain ⟨f, run⟩ := exec_readsBoth takes (isBoth.1 item)
      obtain ⟨failed, poisoned⟩ := withBoth_read (f := f) checked readFirst readNext
      rw [run]
      exact ⟨fun h => by rw [failed h], fun h nothing => by rw [poisoned h nothing]⟩
    · obtain ⟨f, run⟩ := exec_readsRow takes (isRow.1 item)
      obtain ⟨failed, poisoned⟩ := withRow_read (f := f) checked read
      rw [run]
      exact ⟨fun h => by rw [failed h], fun h nothing => by rw [poisoned h nothing]⟩
    · obtain ⟨f, run⟩ := exec_readsRecord takes (isRecord.1 item)
      obtain ⟨failed, poisoned⟩ := withRecord_read (f := f) checked read
      rw [run]
      exact ⟨fun h => by rw [failed h], fun h nothing => by rw [poisoned h nothing]⟩

/-! ## Writes of the row alone (R50, R56, R63) -/

theorem verifyPassed_iff {c : Nat} {s : State} : verifyPassed s c = true ↔ scanned c s := by
  unfold verifyPassed scanned
  cases s.sst.walk <;> simp

/-- A row write, whatever the other blocks do: the row alone changes, and the change of its digest is booked. -/
theorem rowWritten {c : Nat} {r : RowImage} {s u : State} (memory : memoryWf s = true)
    (store : u.sst = (writeRow c r s).sst) :
    rowBecomes c r s u ∧ booked c ((rowAt s c).digest ^^^ (rowAt u c).digest) s u := by
  have becomes : rowBecomes c r s u := rowBecomes_of (writeRow_becomes (rowsWf memory)) (congrArg Sst.rows store)
  refine ⟨becomes, ?_⟩
  rw [becomes.1, booked, store, writeRow_eq]
  simp only [← BitVec.xor_assoc, ← verifyPassed_iff]
  exact ⟨trivial, fun passed => if_pos passed, fun passed => if_neg passed⟩

/-- What revocation notices do to a record where they follow a row write, Q saying when slot m is owed one (R112). -/
theorem revokeWhere_writeRow_record {p : State → SlotId → Bool} {c : Nat} {row : RowImage} {m : SlotId} {s : State}
    {r : EpochRecord} {Q : Prop} [Decidable Q] (record : s.record m = some r)
    (owed : p (writeRow c row s) m = true ∧ s.granting m = true ↔ Q) :
    (revokeWhere p (writeRow c row s)).record m =
      some (if Q then r.notice (r.issued || s.carouselHolds m r.epoch) else r) := by
  have same : (writeRow c row s).record m = some r := record
  rw [revokeWhere_record, same, apply_ite some]
  exact ite_congr (propext owed) (fun _ => rfl) fun _ => rfl

/-! ## A seat that changes region (R95) -/

/-- A region that moves from a to b enters the blackout of a slot's match. -/
def entersBlackout (a b : BitVec 8) (s : State) (m : SlotId) : Bool :=
  (s.live m).any fun rec => !inBlackout rec.blackout a && inBlackout rec.blackout b

/-- A seat whose region moves from a to b is shut out of a slot that it holds: the slot's grants reached it until now. -/
def shutOut (r : RowImage) (i : Fin 32) (a b : BitVec 8) (s : State) (m : SlotId) : Bool :=
  holdsGranting r i s m && !r.suspended i && entersBlackout a b s m

theorem shutOut_iff {r : RowImage} {i : Fin 32} {a b : BitVec 8} {s : State} {m : SlotId} {rec : MatchRecord}
    (live : s.live m = some rec) : shutOut r i a b s m = true ↔ s.granting m = true ∧ r.holds m i = true ∧
      r.suspended i = false ∧ inBlackout rec.blackout a = false ∧ inBlackout rec.blackout b = true := by
  simp [shutOut, holdsGranting, entersBlackout, live, and_assoc]

theorem shutOut_of_mtb {s t : State} (h : t.mtb = s.mtb) (r : RowImage) (i : Fin 32) (a b : BitVec 8) :
    shutOut r i a b t = shutOut r i a b s := by
  funext m
  simp only [shutOut, holdsGranting, entersBlackout, granting_of_mtb h, live_of_mtb h]

/-- A fresh notice and a revocation notice do not see each other: one changes the Fresh Queue, the other an epoch record. -/
theorem revoke_freshNotice (c : Nat) (m n : SlotId) (s : State) :
    revoke n (freshNotice c m s) = freshNotice c m (revoke n s) := by
  have granting : (freshNotice c m s).granting n = s.granting n := rfl
  have record : (freshNotice c m s).record n = s.record n := rfl
  rw [revoke, revoke, granting, record]
  split
  · split <;> rfl
  · rfl

section Region
variable {seat : Nat} {r : RowImage} {g old : BitVec 8} {m : SlotId} {s t : State}

/-- No slot owes both notices: a region is not at once inside and outside its blackout. -/
theorem shutOut_back {i : Fin 32} {a b : BitVec 8} (h : shutOut r i a b s m = true) : shutOut r i b a s m = false := by
  cases live : s.live m with
  | none => simp [shutOut, entersBlackout, live]
  | some rec =>
    obtain ⟨_, _, _, outside, _⟩ := (shutOut_iff live).1 h
    simp [shutOut, entersBlackout, live, outside]

/-- The notice of R95: revocation where the seat is shut out, fresh where the move back would shut it out. -/
theorem regionNotice_eq (from_old : r.region.get (memberOf seat) = old) : regionNotice seat r g m s =
    if shutOut r (memberOf seat) g old s m then freshNotice (seat / 32) m s
    else if shutOut r (memberOf seat) old g s m then revoke m s else s := by
  subst from_old
  unfold regionNotice shutOut entersBlackout
  cases s.live m with
  | none => simp
  | some rec =>
    cases holdsGranting r (memberOf seat) s m && !r.suspended (memberOf seat)
    · rfl
    · cases before : inBlackout rec.blackout (r.region.get (memberOf seat)) <;>
        cases after : inBlackout rec.blackout g <;> simp [before, after]

/-- The notices of a move to the slots of a list are all its revocations and then all its fresh notices. -/
theorem foldl_regionNotice (from_old : r.region.get (memberOf seat) = old) (l : List SlotId) (same : t.mtb = s.mtb) :
    l.foldl (fun t m => regionNotice seat r g m t) t =
      l.foldl (fun t m => if shutOut r (memberOf seat) g old s m then freshNotice (seat / 32) m t else t)
        (l.foldl (fun t m => if shutOut r (memberOf seat) old g s m then revoke m t else t) t) := by
  induction l generalizing t with
  | nil => rfl
  | cons m l ih =>
    rw [List.foldl_cons, List.foldl_cons, List.foldl_cons, regionNotice_eq from_old, shutOut_of_mtb same,
      shutOut_of_mtb same]
    by_cases fresh : shutOut r (memberOf seat) g old s m = true
    · rw [if_pos fresh, if_pos fresh, shutOut_back fresh, if_neg Bool.false_ne_true,
        ih (t := freshNotice (seat / 32) m t) same]
      refine congrArg (List.foldl _ · l) (List.foldl_hom (freshNotice (seat / 32) m) fun u n => ?_)
      split
      · exact revoke_freshNotice ..
      · rfl
    · rw [if_neg fresh, if_neg fresh]
      refine ih ?_
      split <;> simp [same]

/-- The notices of a move to all slots (R95). -/
theorem regionNotices_eq (from_old : r.region.get (memberOf seat) = old) (s : State) :
    slotList.foldl (fun t m => regionNotice seat r g m t) s =
      freshWhere (seat / 32) (shutOut r (memberOf seat) g old) (revokeWhere (shutOut r (memberOf seat) old g) s) := by
  rw [freshWhere, shutOut_of_mtb (s := s) (by simp), revokeWhere]
  exact foldl_regionNotice from_old slotList rfl

end Region

/-! ## Suspension and region (R93 to R95) -/

section Row
variable {seat : Nat} {row : RowImage} {s : State}

theorem suspendChecks_already (h : row.suspended (memberOf seat) = true) :
    suspendChecks seat row s = (⟨.already, 0⟩, s) := if_pos h

theorem suspendChecks_done (h : row.suspended (memberOf seat) = false) : suspendChecks seat row s =
    (⟨.done, 0⟩, revokeWhere (holdsGranting row (memberOf seat))
      (writeRow (seat / 32) (row.setSuspend (memberOf seat) true) s)) := if_neg (by simp [h])

theorem resumeChecks_already (h : row.suspended (memberOf seat) = false) :
    resumeChecks seat row s = (⟨.already, 0⟩, s) := if_pos (by simp [h])

theorem resumeChecks_done (h : row.suspended (memberOf seat) = true) : resumeChecks seat row s =
    (⟨.done, 0⟩, freshWhere (seat / 32) (holdsGranting row (memberOf seat))
      (writeRow (seat / 32) (row.setSuspend (memberOf seat) false) s)) := if_neg (by simp [h])

theorem regionChecks_already {g : BitVec 8} (h : row.region.get (memberOf seat) = g) :
    regionChecks seat g row s = (⟨.already, 0⟩, s) := if_pos h

theorem regionChecks_done {g : BitVec 8} (h : row.region.get (memberOf seat) ≠ g) : regionChecks seat g row s =
    (⟨.done, 0⟩, freshWhere (seat / 32) (shutOut row (memberOf seat) g (row.region.get (memberOf seat)))
      (revokeWhere (shutOut row (memberOf seat) (row.region.get (memberOf seat)) g)
        (writeRow (seat / 32) (row.setRegion (memberOf seat) g) s))) := by
  rw [← regionNotices_eq rfl]
  exact if_neg h

end Row

/-- Settles O38: each item writes the row and then sends its notices, which see the slots as they stood. -/
theorem suspendResumeSetRegion : Obligations.SuspendResumeSetRegion := by
  rintro seat x row s served memory readable rfl
  refine ⟨fun takes => ?_, fun takes => ?_, fun g takes => ?_⟩
  · rw [exec_suspend takes, withRow_readable served readable]
    refine ⟨fun off => by rw [suspendChecks_already off], fun on => ?_⟩
    rw [suspendChecks_done on, revokeWhere_eq]
    refine ⟨_, rfl, and_assoc.1 ⟨rowWritten memory rfl, fun m r record => ?_, rfl⟩⟩
    refine (record_of_epc rfl m).trans (revokeWhere_writeRow_record record ?_)
    rw [holdsGranting, Bool.and_eq_true]
    exact and_iff_left_of_imp And.left
  · rw [exec_resume takes, withRow_readable served readable]
    refine ⟨fun on => by rw [resumeChecks_already on], fun off => ?_⟩
    rw [resumeChecks_done off, freshWhere_fresh]
    exact ⟨_, rfl, and_assoc.1 ⟨rowWritten memory rfl, rfl, rfl⟩⟩
  · rw [exec_setRegion takes, withRow_readable served readable]
    refine ⟨fun same => by rw [regionChecks_already same], fun other => ?_⟩
    rw [regionChecks_done other, freshWhere_fresh, revokeWhere_eq]
    refine ⟨_, rfl, and_assoc.1 ⟨rowWritten memory rfl, fun m r rec record live => ?_, ?_, rfl⟩⟩
    · refine (record_of_epc rfl m).trans (revokeWhere_writeRow_record record ?_)
      exact (and_iff_left_of_imp fun owed => ((shutOut_iff live).1 owed).1).trans (shutOut_iff live)
    · refine congrArg (List.foldl _ s.gcr.fresh) (List.filter_congr fun m _ => ?_)
      refine (congrFun (shutOut_of_mtb (s := s) rfl ..) m).trans ?_
      rw [shutOut, holdsGranting, entersBlackout]
      cases s.live m
      · rfl
      · rw [Option.any_some, Bool.and_comm (!_)]

end Sys2Proof.Machine

/-! SUPPORT. The grant decision: which members a mask grants, the row that a build reads, and the entries of a cohort and slot
(R97 to R107). -/

namespace Sys2Proof.Machine

/-! ## Masks by member (R59, R97, R100, R101) -/

theorem memberBit_getLsbD (i j : Fin 32) : (memberBit i).getLsbD j.val = decide (j = i) := by
  revert i j
  decide

theorem mem_memberList (i : Fin 32) : i ∈ memberList := by revert i; decide

/-- A mask gathered from the members that satisfy p. -/
theorem foldl_memberBit_getLsbD (p : Fin 32 → Prop) [DecidablePred p] (l : List (Fin 32)) (acc : MemberMask) (i : Fin 32) :
    (l.foldl (fun mask j => if p j then mask ||| memberBit j else mask) acc).getLsbD i.val = true ↔
      acc.getLsbD i.val = true ∨ i ∈ l ∧ p i := by
  induction l generalizing acc with
  | nil => simp
  | cons j l ih =>
    rw [List.foldl_cons, ih, List.mem_cons]
    by_cases hj : p j
    · rw [if_pos hj, BitVec.getLsbD_or, memberBit_getLsbD, Bool.or_eq_true, decide_eq_true_eq]
      by_cases same : i = j
      · subst same; simp [hj]
      · simp [same]
    · rw [if_neg hj]
      by_cases same : i = j
      · subst same; simp [hj]
      · simp [same]

theorem houseMask_getLsbD (s : State) (c : Nat) (i : Fin 32) :
    (houseMask s c).getLsbD i.val = true ↔ 32 * c + i.val ∈ s.sst.house := by
  rw [houseMask, foldl_memberBit_getLsbD (fun j => seatOf c j ∈ s.sst.house)]
  simp [mem_memberList, seatOf]

theorem blackoutMask_getLsbD (r : RowImage) (set : BitVec 256) (i : Fin 32) :
    (blackoutMask r set).getLsbD i.val = inBlackout set (r.region.get i) := by
  rw [Bool.eq_iff_iff, blackoutMask, foldl_memberBit_getLsbD (fun j => inBlackout set (r.region.get j) = true)]
  simp [mem_memberList]

/-- A readable row grants a member that holds the slot, is not suspended and is not blacked out (R100). -/
theorem rowMask_getLsbD (r : RowImage) (m : SlotId) (set : BitVec 256) (i : Fin 32) :
    (rowMask r m set).getLsbD i.val = true ↔
      r.holds m i = true ∧ r.suspended i = false ∧ set.getLsbD (r.region.get i).toNat = false := by
  simp only [rowMask, BitVec.getLsbD_and, BitVec.getLsbD_not, blackoutMask_getLsbD, i.isLt, decide_true, Bool.true_and,
    Bool.and_eq_true, Bool.not_eq_true', and_assoc]
  rfl

/-- Where the row cannot be used, OPEN grants every member and CLOSED none (R101). -/
theorem policyMask_getLsbD (f : FailPolicy) (i : Fin 32) : (policyMask f).getLsbD i.val = true ↔ f = .openPolicy := by
  cases f with
  | openPolicy => exact iff_of_true (BitVec.getLsbD_allOnes.trans (decide_eq_true i.isLt)) rfl
  | closedPolicy => simp [policyMask]

/-- The mask an entry would carry: a member is granted by the base mask or by the House Seat List (R97). -/
theorem grantMask_getLsbD (base : MemberMask) (s : State) (c : Nat) (i : Fin 32) :
    (base ||| houseMask s c).getLsbD i.val = true ↔ base.getLsbD i.val = true ∨ 32 * c + i.val ∈ s.sst.house := by
  rw [BitVec.getLsbD_or, Bool.or_eq_true, houseMask_getLsbD]

/-! ## The row that a build reads (R98, R99, R102) -/

section Row
variable {c : Nat} {s : State}

theorem rowForBuild_policy (h : s.sst.store = .clearing ∨ s.sst.store = .failed) (wanted : Bool) :
    rowForBuild c wanted s = (none, s) := by
  unfold rowForBuild
  rcases h with h | h <;> rw [h]

theorem rowForBuild_open (h : storeOpen s) (wanted : Bool) :
    rowForBuild c wanted s = if wanted then readRow c s else (none, s) := by
  unfold rowForBuild
  rcases h with h | h <;> rw [h]

theorem store_cases (s : State) : (s.sst.store = .clearing ∨ s.sst.store = .failed) ∨ storeOpen s := by
  cases h : s.sst.store <;> simp [storeOpen, h]

/-- A build leaves the state as it is, or as its checked read left it. -/
theorem rowForBuild_state (c : Nat) (wanted : Bool) (s : State) :
    (rowForBuild c wanted s).2 = s ∨ (rowForBuild c wanted s).2 = (readRow c s).2 := by
  rcases store_cases s with shut | opened
  · exact .inl (congrArg Prod.snd (rowForBuild_policy shut wanted))
  · rw [rowForBuild_open opened]
    cases wanted with
    | false => exact .inl rfl
    | true => exact .inr rfl

theorem rowForBuild_poisoned (h : isPoisoned s .row c = true) : (rowForBuild c true s).1 = none := by
  rcases store_cases s with shut | opened
  · rw [rowForBuild_policy shut]
  · rw [rowForBuild_open opened, if_pos rfl, readRow_poisoned h]

end Row

/-! ## The entries of a cohort and slot (R97, R103 to R107) -/

/-- The epochs and keys that the entries of a slot carry: outside a rollover the current ones, in a rollover the next ones, and
in a fresh build both (R104, R106). -/
def EpochRecord.entryKeys (dual : Bool) (r : EpochRecord) : List (BitVec 16 × Drawn) :=
  match r.rollover.rolling, r.pendingKey with
  | true, some k => if dual then [(r.epoch, r.currentKey), (r.epoch + 1, k)] else [(r.epoch + 1, k)]
  | _, _ => [(r.epoch, r.currentKey)]

section Keys
variable {r : EpochRecord}

theorem entryKeys_steady (h : r.rollover.rolling = false) (dual : Bool) : r.entryKeys dual = [(r.epoch, r.currentKey)] := by
  rw [EpochRecord.entryKeys, h]

theorem entryKeys_rolling {k : Drawn} (h : r.rollover.rolling = true) (pending : r.pendingKey = some k) (dual : Bool) :
    r.entryKeys dual = if dual then [(r.epoch, r.currentKey), (r.epoch + 1, k)] else [(r.epoch + 1, k)] := by
  rw [EpochRecord.entryKeys, h, pending]

theorem entryKeys_ne_nil (dual : Bool) (r : EpochRecord) : r.entryKeys dual ≠ [] := by
  unfold EpochRecord.entryKeys
  split
  · cases dual <;> simp
  · simp

/-- Two keys at most, and one outside a rollover (R136). -/
theorem entryKeys_length (dual : Bool) (r : EpochRecord) :
    (r.entryKeys dual).length ≤ if r.rollover.rolling then 2 else 1 := by
  unfold EpochRecord.entryKeys
  split
  · next rolling _ => rw [rolling]; cases dual <;> simp
  · cases r.rollover.rolling <;> simp

end Keys

section Entries
variable {dual : Bool} {s : State} {c : Nat} {row : Option RowImage} {m : SlotId} {rec : MatchRecord} {r : EpochRecord}

theorem entriesFor_notGranting (h : s.granting m = false) : entriesFor dual s c row m = [] := by
  rw [entriesFor, h]
  rfl

/-- A granting slot's entries: none for a mask of 0, else one for each key that its epoch record gives. -/
theorem entriesFor_granting (granting : s.granting m = true) (live : s.live m = some rec) (record : s.record m = some r) :
    entriesFor dual s c row m = if baseMask row rec m ||| houseMask s c = 0 then [] else
      (r.entryKeys dual).map fun x => makeEntry s c m rec x.1 x.2 (baseMask row rec m ||| houseMask s c) := by
  simp only [entriesFor, EpochRecord.entryKeys, granting, live, record, if_true]
  congr 1
  cases r.rollover.rolling with
  | false => rfl
  | true =>
    cases r.pendingKey with
    | none => rfl
    | some k => cases dual <;> rfl

/-- What an entry says of its slot: it is granting, and the entry is made from its records with a mask that grants someone. -/
theorem mem_entriesFor {e : GrantEntry} (h : e ∈ entriesFor dual s c row m) :
    ∃ rec r x, s.granting m = true ∧ s.live m = some rec ∧ s.record m = some r ∧
      baseMask row rec m ||| houseMask s c ≠ 0 ∧ x ∈ r.entryKeys dual ∧
      e = makeEntry s c m rec x.1 x.2 (baseMask row rec m ||| houseMask s c) := by
  cases granting : s.granting m with
  | false => rw [entriesFor_notGranting granting] at h; contradiction
  | true =>
    cases live : s.live m with
    | none => simp [entriesFor, granting, live] at h
    | some rec =>
      cases record : s.record m with
      | none => simp [entriesFor, granting, live, record] at h
      | some r =>
        rw [entriesFor_granting granting live record] at h
        split at h
        · contradiction
        · next someone =>
          obtain ⟨x, hx, rfl⟩ := List.mem_map.1 h
          exact ⟨rec, r, x, rfl, rfl, rfl, someone, hx, rfl⟩

end Entries

/-- Settles O17: member by member for the masks, and through the keys that an epoch record gives for the entries. -/
theorem grantDecision : Obligations.GrantDecision := by
  refine ⟨fun s c m rec r dual => ⟨fun idle row => entriesFor_notGranting idle, fun granting live record =>
      ⟨fun row e he => ?_, fun row someone => ?_⟩, fun row i => ?_, fun i => ?_, rowForBuild_policy,
      fun opened => ⟨rowForBuild_open opened true, rowForBuild_open opened false⟩, fun opened readable => ?_,
      rowForBuild_poisoned⟩,
    fun s c m rec r row mask granting live record hmask someone =>
      ⟨fun steady dual => ?_, fun k rolling pending => ⟨?_, ?_⟩⟩⟩
  · obtain ⟨rec', r', x, -, live', -, someone, -, rfl⟩ := mem_entriesFor he
    obtain rfl : rec = rec' := Option.some.inj (live.symm.trans live')
    exact ⟨rfl, rfl, rfl, rfl, someone⟩
  · rw [entriesFor_granting granting live record, if_neg someone]
    exact mt List.map_eq_nil_iff.1 (entryKeys_ne_nil dual r)
  · rw [grantMask_getLsbD, baseMask, rowMask_getLsbD]
  · rw [grantMask_getLsbD, baseMask, policyMask_getLsbD]
  · rw [rowForBuild_open opened, if_pos rfl, readRow_readable (storeOpen_not_clearing opened) readable]
  all_goals subst hmask; rw [entriesFor_granting granting live record, if_neg someone]
  · rw [entryKeys_steady steady]
    rfl
  · rw [entryKeys_rolling rolling pending]
    rfl
  · rw [entryKeys_rolling rolling pending]
    rfl

end Sys2Proof.Machine

/-! SUPPORT. The fresh build: what a checked read leaves of the grants, and what a build makes of the Fresh Queue's head
(R136, R137). -/

namespace Sys2Proof.Machine

/-! ## The room that a pair needs (R136) -/

theorem pairNeeds_eq (s : State) (m : SlotId) :
    pairNeeds s m = if (s.record m).map (·.rollover.rolling) = some true then 2 else 1 := by
  rw [pairNeeds]
  cases s.record m <;> simp

theorem pairNeeds_record {s : State} {m : SlotId} {r : EpochRecord} (record : s.record m = some r) :
    pairNeeds s m = if r.rollover.rolling then 2 else 1 := by
  rw [pairNeeds, record]

theorem pairNeeds_noRecord {s : State} {m : SlotId} (record : s.record m = none) : pairNeeds s m = 1 := by
  rw [pairNeeds, record]

/-- A head that does not fit where there is room for an entry has an epoch record: it is dual. -/
theorem record_of_noRoom {s : State} {m : SlotId} {n : Nat} (room : n < 6) (tooMany : 6 < n + pairNeeds s m) :
    ∃ r, s.record m = some r := by
  cases record : s.record m with
  | none => rw [pairNeeds_noRecord record] at tooMany; omega
  | some r => exact ⟨r, rfl⟩

/-! ## What a checked read leaves of the grants (R52, R65, R70, R112)

A read that fails its digest can poison the row, fail the store or lose the verify. All of that leaves each granting slot in
its state, and revocation notices neither start nor end a rollover. -/

/-- The same slots are granting, and those that are have rollovers under way or not as before. -/
structure SameGrants (s t : State) : Prop where
  granting : ∀ m, t.granting m = s.granting m
  rolling : ∀ m, s.granting m = true → (t.record m).map (·.rollover.rolling) = (s.record m).map (·.rollover.rolling)

section Same
variable {s t u : State}

theorem SameGrants.refl (s : State) : SameGrants s s := ⟨fun _ => rfl, fun _ _ => rfl⟩

theorem SameGrants.trans (h : SameGrants s t) (h' : SameGrants t u) : SameGrants s u where
  granting m := (h'.granting m).trans (h.granting m)
  rolling m granting := (h'.rolling m ((h.granting m).trans granting)).trans (h.rolling m granting)

/-- What keeps the Match Table and the Epoch Controller keeps the grants. -/
theorem SameGrants.of_blocks (mtb : t.mtb = s.mtb) (epc : t.epc = s.epc) : SameGrants s t where
  granting := granting_of_mtb mtb
  rolling m _ := by rw [record_of_epc epc]

theorem SameGrants.pairNeeds (h : SameGrants s t) {m : SlotId} (granting : s.granting m = true) :
    pairNeeds t m = pairNeeds s m := by
  rw [pairNeeds_eq, pairNeeds_eq, h.rolling m granting]

theorem notice_rolling (r : EpochRecord) (exposed : Bool) : (r.notice exposed).rollover.rolling = r.rollover.rolling := by
  unfold EpochRecord.notice
  split
  · split <;> simp [RolloverState.rolling, *]
  all_goals rfl

theorem sameGrants_revokeWhere (p : State → SlotId → Bool) (s : State) : SameGrants s (revokeWhere p s) where
  granting := granting_of_mtb (by simp)
  rolling m _ := by
    rw [revokeWhere_record]
    split
    · cases s.record m <;> simp [notice_rolling]
    · rfl

theorem sameGrants_offer (b : ReportBody) (s : State) : SameGrants s (offer b s) := .of_blocks (by simp) (by simp)

theorem sameGrants_takeFault (c : FaultClass) (i : Nat) (k : ItemKind) (s : State) : SameGrants s (takeFault c i k s) :=
  .of_blocks (by simp) (by simp)

/-- The store enters another state, its report given and its revocation notices sent (R61, R65). -/
theorem sameGrants_enter (b : ReportBody) (sst : Sst) (p : State → SlotId → Bool) (s : State) :
    SameGrants s (revokeWhere p (offer b { s with sst := sst })) := by
  have entered : SameGrants s (offer b { s with sst := sst }) := .of_blocks (by simp) (by simp)
  exact entered.trans (sameGrants_revokeWhere p _)

theorem sameGrants_poisonItem (k : ItemKind) (i : Nat) (s : State) : SameGrants s (poisonItem k i s) := by
  have listed : SameGrants s (takeFault k.fault i k { s with sst := { s.sst with poison := s.sst.poison ++ [⟨k, i⟩] } }) :=
    .of_blocks (by simp) (by simp)
  unfold poisonItem
  cases k with
  | row => exact listed.trans (sameGrants_revokeWhere _ _)
  | seat => exact listed

theorem settled_granting (x : MatchSlot) : x.settled.state.granting = x.state.granting := by
  by_cases wiping : x.state = .wiping
  · rw [settled_wiping wiping, wiping]; rfl
  · by_cases abandoned : x.state = .abandoned
    · rw [settled_abandoned abandoned, abandoned]; rfl
    · rw [settled_other wiping abandoned]

/-- A cut walk settles slots that are not granting (R70). -/
theorem SettledSlots.sameGrants {l : List SlotId} (h : SettledSlots s l t) : SameGrants s t where
  granting m := by
    rw [State.granting, h.slot m]
    split
    · exact settled_granting _
    · rfl
  rolling m granting := by
    have notWiping : (s.slot m).state ≠ .wiping := fun wiping => by
      simp [State.granting, wiping, SlotState.granting] at granting
    rw [h.record m, if_neg fun both => notWiping both.2]

theorem sameGrants_verifyLost (b : ReportBody) (s : State) : SameGrants s (verifyLost b s) := by
  have settled := (settledSlots_slotList (offer b s)).sameGrants
  unfold verifyLost cutAndClear enterClearing
  exact (sameGrants_offer b s).trans (settled.trans (sameGrants_enter _ _ _ _))

theorem sameGrants_digestFailure (k : ItemKind) (i : Nat) (s : State) : SameGrants s (digestFailure k i s) := by
  unfold digestFailure
  split
  · exact .refl s
  · split
    · exact sameGrants_poisonItem ..
    · exact (sameGrants_verifyLost ..).trans (sameGrants_takeFault ..)
  · split
    · exact sameGrants_poisonItem ..
    · exact (sameGrants_enter ..).trans (sameGrants_takeFault ..)
  · exact sameGrants_takeFault ..

theorem sameGrants_readRow (c : Nat) (s : State) : SameGrants s (readRow c s).2 := by
  rcases readRow_state c s with same | failure
  · rw [same]; exact .refl s
  · rw [failure]; exact sameGrants_digestFailure .row c s

theorem sameGrants_rowForBuild (c : Nat) (wanted : Bool) (s : State) : SameGrants s (rowForBuild c wanted s).2 := by
  rcases rowForBuild_state c wanted s with same | read
  · rw [same]; exact .refl s
  · rw [read]; exact sameGrants_readRow c s

theorem rowForBuild_gcr (c : Nat) (wanted : Bool) (s : State) : (rowForBuild c wanted s).2.gcr = s.gcr := by
  rcases rowForBuild_state c wanted s with same | read
  · rw [same]
  · rw [read]; simp

end Same

/-! ## Taking pairs (R136, R137) -/

/-- A pair's entries take no more room than its slot needs. -/
theorem entriesFor_length {s : State} {dual : Bool} {c : Nat} {row : Option RowImage} {m : SlotId} :
    (entriesFor dual s c row m).length ≤ pairNeeds s m := by
  by_cases nothing : entriesFor dual s c row m = []
  · rw [nothing]; exact Nat.zero_le _
  · obtain ⟨e, he⟩ := List.exists_mem_of_ne_nil _ nothing
    obtain ⟨rec, r, -, granting, live, record, someone, -, -⟩ := mem_entriesFor he
    rw [entriesFor_granting granting live record, if_neg someone, List.length_map, pairNeeds_record record]
    exact entryKeys_length dual r

section Loop
variable {p : FreshPair} {q taken : List FreshPair} {s : State}

theorem takePairs_full (full : 6 ≤ s.gcr.building.length) : takePairs (p :: q) taken s = (p :: q, taken, s) := by
  rw [takePairs, if_pos full]

theorem takePairs_notGranting (room : s.gcr.building.length < 6) (h : s.granting p.slot = false) :
    takePairs (p :: q) taken s = takePairs q taken s := by
  rw [takePairs, if_neg (Nat.not_le.2 room), h]
  rfl

theorem takePairs_noRoom (room : s.gcr.building.length < 6) (granting : s.granting p.slot = true)
    (tooMany : 6 < s.gcr.building.length + pairNeeds s p.slot) : takePairs (p :: q) taken s = (p :: q, taken, s) := by
  rw [takePairs, if_neg (Nat.not_le.2 room), granting, Bool.not_true, if_neg Bool.false_ne_true, if_pos tooMany]

/-- A head that fits is used up, and taken where its read gives it entries. -/
theorem takePairs_read {row : Option RowImage} {u : State} (room : s.gcr.building.length < 6)
    (granting : s.granting p.slot = true) (fits : s.gcr.building.length + pairNeeds s p.slot ≤ 6)
    (read : rowForBuild p.cohort true s = (row, u)) : takePairs (p :: q) taken s =
      if entriesFor true u p.cohort row p.slot = [] then takePairs q taken u
      else takePairs q (taken ++ [p]) { u with gcr := { u.gcr with
        building := u.gcr.building ++ entriesFor true u p.cohort row p.slot } } := by
  rw [takePairs, if_neg (Nat.not_le.2 room), granting, Bool.not_true, if_neg Bool.false_ne_true, if_neg (Nat.not_lt.2 fits),
    read]

end Loop

/-- The builder's loop goes through the queue as `FreshBuilds` says, its pairs put behind those taken before. -/
theorem takePairs_builds (q taken : List FreshPair) (s : State) : ∃ rest pairs v,
    takePairs q taken s = (rest, taken ++ pairs, v) ∧ FreshBuilds q s rest pairs v := by
  induction q generalizing taken s with
  | nil => exact ⟨[], [], s, by rw [takePairs, List.append_nil], .atEnd s⟩
  | cons p q ih =>
    rcases Nat.lt_or_ge s.gcr.building.length 6 with room | full
    case inr => exact ⟨_, [], s, by rw [takePairs_full full, List.append_nil], .full p q s full⟩
    cases granting : s.granting p.slot with
    | false =>
      obtain ⟨rest, pairs, v, run, builds⟩ := ih taken s
      exact ⟨rest, pairs, v, by rw [takePairs_notGranting room granting, run],
        .notGranting p q rest pairs s v room granting builds⟩
    | true =>
      rcases Nat.lt_or_ge 6 (s.gcr.building.length + pairNeeds s p.slot) with tooMany | fits
      · obtain ⟨r, record⟩ := record_of_noRoom room tooMany
        exact ⟨_, [], s, by rw [takePairs_noRoom room granting tooMany, List.append_nil],
          .noRoom p q s r granting record (pairNeeds_record record ▸ tooMany)⟩
      have fitsRecord := fun r (record : s.record p.slot = some r) => pairNeeds_record record ▸ fits
      rcases read : rowForBuild p.cohort true s with ⟨row, u⟩
      rw [takePairs_read room granting fits read]
      split
      · next nothing =>
        obtain ⟨rest, pairs, v, run, builds⟩ := ih taken u
        exact ⟨rest, pairs, v, run, .noEntry p q rest pairs s u v row room granting fitsRecord read nothing builds⟩
      · next something =>
        obtain ⟨rest, pairs, v, run, builds⟩ := ih (taken ++ [p]) _
        exact ⟨rest, p :: pairs, v, by rw [run, List.append_assoc, List.singleton_append],
          .taken p q rest pairs s u v row _ room granting fitsRecord read rfl something builds⟩

section Builds
variable {q rest pairs : List FreshPair} {s v : State}

/-- What is left is a tail of the queue, and the pairs taken stand in queue order in what was used up. -/
theorem FreshBuilds.drops (h : FreshBuilds q s rest pairs v) : ∃ n, rest = q.drop n ∧ pairs.Sublist (q.take n) := by
  induction h with
  | atEnd | full | noRoom => exact ⟨0, rfl, List.Sublist.refl []⟩
  | notGranting p _ _ _ _ _ _ _ _ ih | noEntry p _ _ _ _ _ _ _ _ _ _ _ _ _ ih =>
    obtain ⟨n, left, sub⟩ := ih
    exact ⟨n + 1, left, sub.cons p⟩
  | taken p _ _ _ _ _ _ _ _ _ _ _ _ _ _ _ ih =>
    obtain ⟨n, left, sub⟩ := ih
    exact ⟨n + 1, left, sub.cons_cons p⟩

/-- An entry and the pair it was made for. -/
def EntryOf (s : State) (p : FreshPair) (e : GrantEntry) : Prop :=
  e.cohort = p.cohort ∧ e.slot = p.slot ∧ s.granting p.slot = true ∧ e.mask ≠ 0

theorem SameGrants.entryOf {t : State} (h : SameGrants s t) {p : FreshPair} {e : GrantEntry} :
    EntryOf t p e ↔ EntryOf s p e := by
  rw [EntryOf, EntryOf, h.granting]

theorem entryOf_of_mem {p : FreshPair} {e : GrantEntry} {dual : Bool} {row : Option RowImage}
    (h : e ∈ entriesFor dual s p.cohort row p.slot) : EntryOf s p e := by
  obtain ⟨rec, r, x, granting, -, -, someone, -, rfl⟩ := mem_entriesFor h
  exact ⟨rfl, rfl, granting, someone⟩

/-- What a fresh build leaves behind, from a packet in build of at most six entries: that packet with the entries of the pairs
taken behind it, still at most six, and nothing else of the carousel changed. -/
structure Built (s : State) (pairs : List FreshPair) (v : State) (es : List GrantEntry) : Prop where
  gcr : v.gcr = { s.gcr with building := s.gcr.building ++ es }
  bound : s.gcr.building.length ≤ 6 → (s.gcr.building ++ es).length ≤ 6
  entries : ∀ e ∈ es, ∃ p ∈ pairs, EntryOf s p e
  pairs : ∀ p ∈ pairs, ∃ e ∈ es, EntryOf s p e

theorem built_nothing (s : State) : Built s [] s [] where
  gcr := by rw [List.append_nil]
  bound h := by rwa [List.append_nil]
  entries _ he := absurd he List.not_mem_nil
  pairs _ hp := absurd hp List.not_mem_nil

/-- A read before the rest of the build changes nothing that the packet shows. -/
theorem Built.of_read {u : State} {es : List GrantEntry} (h : Built u pairs v es) (same : SameGrants s u)
    (gcr : u.gcr = s.gcr) : Built s pairs v es where
  gcr := gcr ▸ h.gcr
  bound := gcr ▸ h.bound
  entries e he := let ⟨p, hp, made⟩ := h.entries e he; ⟨p, hp, same.entryOf.1 made⟩
  pairs p hp := let ⟨e, he, made⟩ := h.pairs p hp; ⟨e, he, same.entryOf.1 made⟩

/-- A pair whose entries fit goes into the packet before those of the rest of the build. -/
theorem Built.cons {p : FreshPair} {mine es : List GrantEntry}
    (h : Built { s with gcr := { s.gcr with building := s.gcr.building ++ mine } } pairs v es)
    (fits : (s.gcr.building ++ mine).length ≤ 6) (something : mine ≠ []) (made : ∀ e ∈ mine, EntryOf s p e) :
    Built s (p :: pairs) v (mine ++ es) where
  gcr := by rw [h.gcr, List.append_assoc]
  bound _ := by rw [← List.append_assoc]; exact h.bound fits
  entries e he := by
    rcases List.mem_append.1 he with first | later
    · exact ⟨p, List.mem_cons_self, made e first⟩
    · obtain ⟨x, hx, of⟩ := h.entries e later
      exact ⟨x, List.mem_cons_of_mem _ hx, of⟩
  pairs x hx := by
    rcases List.mem_cons.1 hx with rfl | later
    · obtain ⟨e, he⟩ := List.exists_mem_of_ne_nil mine something
      exact ⟨e, List.mem_append_left _ he, made e he⟩
    · obtain ⟨e, he, of⟩ := h.pairs x later
      exact ⟨e, List.mem_append_right _ he, of⟩

/-- The entries of a granting slot fit where its slot's record says that they do. -/
theorem entries_fit {u : State} {p : FreshPair} {row : Option RowImage} (same : SameGrants s u)
    (room : s.gcr.building.length < 6) (granting : s.granting p.slot = true)
    (fits : ∀ r, s.record p.slot = some r → s.gcr.building.length + (if r.rollover.rolling then 2 else 1) ≤ 6) :
    (s.gcr.building ++ entriesFor true u p.cohort row p.slot).length ≤ 6 := by
  have short : (entriesFor true u p.cohort row p.slot).length ≤ pairNeeds s p.slot :=
    same.pairNeeds granting ▸ entriesFor_length
  have needs : s.gcr.building.length + pairNeeds s p.slot ≤ 6 := by
    cases record : s.record p.slot with
    | none => rw [pairNeeds_noRecord record]; exact room
    | some r => exact pairNeeds_record record ▸ fits r record
  rw [List.length_append]
  omega

theorem FreshBuilds.built (h : FreshBuilds q s rest pairs v) : ∃ es, Built s pairs v es := by
  induction h with
  | atEnd s | full _ _ s | noRoom _ _ s => exact ⟨[], built_nothing s⟩
  | notGranting _ _ _ _ _ _ _ _ _ ih => exact ih
  | noEntry p _ _ _ s u _ row _ _ _ read _ _ ih =>
    obtain ⟨es, built⟩ := ih
    obtain rfl : (rowForBuild p.cohort true s).2 = u := congrArg Prod.snd read
    exact ⟨es, built.of_read (sameGrants_rowForBuild ..) (rowForBuild_gcr ..)⟩
  | taken p _ _ _ s u _ row mine room granting fits read made something _ ih =>
    obtain ⟨es, built⟩ := ih
    subst made
    obtain rfl : (rowForBuild p.cohort true s).2 = u := congrArg Prod.snd read
    have same := sameGrants_rowForBuild p.cohort true s
    have gcr := rowForBuild_gcr p.cohort true s
    refine ⟨_, (built.cons ?_ something fun e => entryOf_of_mem).of_read same gcr⟩
    rw [gcr]
    exact entries_fit same room granting fits

end Builds

/-- Settles O12: the loop follows `FreshBuilds`, and what the packet holds goes by induction on that relation. -/
theorem freshBuildTakesPairsInOrder : Obligations.FreshBuildTakesPairsInOrder := by
  intro s u es pairs empty run
  obtain ⟨rest, taken, v, loop, builds⟩ := takePairs_builds s.gcr.fresh [] s
  rw [freshBuild, loop] at run
  obtain ⟨rfl, rfl, rfl⟩ : v.gcr.building = es ∧ taken = pairs ∧
      { v with gcr := { v.gcr with fresh := rest, building := [] } } = u := by simpa using run
  obtain ⟨es, built⟩ := builds.built
  have packet : v.gcr.building = es := by rw [built.gcr, empty, List.nil_append]
  refine ⟨⟨v, builds, rfl, rfl⟩, ?_, builds.drops, fun e he => ?_, fun p hp => ?_, ?_⟩
  · have bound := built.bound (by simp [empty])
    rwa [empty, List.nil_append, ← packet] at bound
  · exact built.entries e (packet ▸ he)
  · obtain ⟨e, he, cohort, slot, -⟩ := built.pairs p hp
    exact ⟨e, packet ▸ he, cohort, slot⟩
  · rw [built.gcr, ← empty]

end Sys2Proof.Machine

/-! SUPPORT. Free slots for grants: what a fresh build leaves of the Insertion Arbiter, and the choice between the fresh packet,
the ready sweep packet and a null packet (R136, R137, R146, R150 to R154). -/

namespace Sys2Proof.Machine

/-! ## What a fresh build leaves of the Insertion Arbiter (R52, R70, R137)

The checked read of a build can cut the walks, and a slot that then closes gives up its identifiers, its Word PID's counter and
its Word Message. The output, the settings, the credits and the fresh run stay. -/

/-- The same output, settings, credits and fresh run, and the continuity counters still in canonical form. -/
structure SameArbiter (s t : State) : Prop where
  out : t.out = s.out
  settings : t.settings = s.settings
  credits : t.ina.credits = s.ina.credits
  freshRun : t.ina.freshRun = s.ina.freshRun
  counters : sparseWf 0 s.siu.continuity = true → sparseWf 0 t.siu.continuity = true

section Arbiter
variable {s t u : State}

theorem SameArbiter.refl (s : State) : SameArbiter s s := ⟨rfl, rfl, rfl, rfl, id⟩

theorem SameArbiter.trans (h : SameArbiter s t) (h' : SameArbiter t u) : SameArbiter s u where
  out := h'.out.trans h.out
  settings := h'.settings.trans h.settings
  credits := h'.credits.trans h.credits
  freshRun := h'.freshRun.trans h.freshRun
  counters wf := h'.counters (h.counters wf)

theorem SameArbiter.setGcr (h : SameArbiter s t) (g : Gcr) : SameArbiter s { t with gcr := g } :=
  ⟨h.out, h.settings, h.credits, h.freshRun, h.counters⟩

/-- What keeps the four blocks keeps the arbiter. -/
theorem SameArbiter.of_blocks (blocks : t.out = s.out ∧ t.settings = s.settings ∧ t.ina = s.ina ∧ t.siu = s.siu) :
    SameArbiter s t := by
  obtain ⟨out, settings, ina, siu⟩ := blocks
  exact ⟨out, settings, by rw [ina], by rw [ina], by rw [siu]; exact id⟩

/-- Of the counters, a release discards the Word PID's alone (R7, R13). -/
theorem releaseClaims_counters (m : SlotId) (h : sparseWf 0 s.siu.continuity = true) :
    sparseWf 0 (releaseClaims m s).siu.continuity = true := by
  unfold releaseClaims
  split
  · exact h
  · next r _ =>
    have kept : (r.claims.foldl (fun u p => u.setClass p .pass) s.siu).continuity = s.siu.continuity :=
      foldl_keeps Siu.continuity (g := fun u p => u.setClass p .pass) (fun _ _ => rfl) r.claims s.siu
    exact sparseWf_set (by rw [kept]; exact h) r.wordPid 0

theorem sameArbiter_releaseClaims (m : SlotId) (s : State) : SameArbiter s (releaseClaims m s) :=
  ⟨by simp, by simp, by simp, by simp, releaseClaims_counters m⟩

theorem sameArbiter_stopWords (m : SlotId) (s : State) : SameArbiter s (stopWords m s) := ⟨rfl, rfl, rfl, rfl, id⟩

theorem sameArbiter_enterClosed (m : SlotId) (c : StateCause) (s : State) : SameArbiter s (enterClosed m c s) := by
  have released : SameArbiter s (releaseClaims m (enterState m .closed c s)) :=
    .trans (.of_blocks (by simp)) (sameArbiter_releaseClaims m _)
  unfold enterClosed
  refine .trans ?_ (sameArbiter_stopWords m _)
  split
  · exact released.trans (.of_blocks (by simp))
  · exact released

theorem sameArbiter_settleSlot (w : Option Walk) (m : SlotId) (s : State) : SameArbiter s (settleSlot w m s) := by
  rcases settle_cases s m with wiping | abandoned | ⟨notWiping, notAbandoned⟩
  · rw [settleSlot_wiping wiping]
    exact .of_blocks (by simp)
  · rw [settleSlot_abandoned abandoned]
    exact .trans (.of_blocks (by simp)) (sameArbiter_enterClosed m .walkCut _)
  · rw [settleSlot_other notWiping notAbandoned]
    exact .refl s

theorem sameArbiter_cutAndClear (s : State) : SameArbiter s (cutAndClear s) := by
  have settled : SameArbiter s
      (slotList.foldl (fun t m => settleSlot s.sst.walk m t) { s with sst := { s.sst with walkQueue := [] } }) :=
    List.foldlRecOn slotList _ (motive := SameArbiter s) (.of_blocks ⟨rfl, rfl, rfl, rfl⟩)
      fun t ht m _ => ht.trans (sameArbiter_settleSlot _ m t)
  exact settled.trans (.of_blocks (by simp only [cutAndClear, enterClearing_frame, and_self]))

theorem sameArbiter_digestFailure (k : ItemKind) (i : Nat) (s : State) : SameArbiter s (digestFailure k i s) := by
  have lost (b : ReportBody) : SameArbiter s (verifyLost b s) := .trans (.of_blocks (by simp)) (sameArbiter_cutAndClear _)
  unfold digestFailure
  split
  · exact .refl s
  · split
    · exact .of_blocks (by simp)
    · exact (lost (.storeLostOverflow i s.sst.signature)).trans (.of_blocks (by simp))
  · split
    · exact .of_blocks (by simp)
    · exact .of_blocks (by simp)
  · exact .of_blocks (by simp)

theorem sameArbiter_rowForBuild (c : Nat) (wanted : Bool) (s : State) : SameArbiter s (rowForBuild c wanted s).2 := by
  have read : SameArbiter s (readRow c s).2 := by
    rcases readRow_state c s with same | failure
    · rw [same]; exact .refl s
    · rw [failure]; exact sameArbiter_digestFailure .row c s
  rcases rowForBuild_state c wanted s with same | other
  · rw [same]; exact .refl s
  · rw [other]; exact read

theorem FreshBuilds.sameArbiter {q rest pairs : List FreshPair} (h : FreshBuilds q s rest pairs t) : SameArbiter s t := by
  induction h with
  | atEnd s | full _ _ s | noRoom _ _ s => exact .refl s
  | notGranting _ _ _ _ _ _ _ _ _ ih => exact ih
  | noEntry p _ _ _ s _ _ _ _ _ _ read _ _ ih =>
    obtain rfl := congrArg Prod.snd read
    exact (sameArbiter_rowForBuild p.cohort true s).trans ih
  | taken p _ _ _ s _ _ _ _ _ _ _ read _ _ _ ih =>
    obtain rfl := congrArg Prod.snd read
    exact ((sameArbiter_rowForBuild p.cohort true s).setGcr _).trans ih

/-- A fresh build changes nothing that the arbiter places by, and leaves the ready sweep packet (R137). -/
theorem freshBuild_arbiter (s : State) : SameArbiter s (freshBuild s).2.2 ∧ (freshBuild s).2.2.gcr.ready = s.gcr.ready := by
  obtain ⟨rest, pairs, v, run, builds⟩ := takePairs_builds s.gcr.fresh [] s
  obtain ⟨es, built⟩ := builds.built
  rw [freshBuild, run]
  exact ⟨builds.sameArbiter.setGcr _, by rw [built.gcr]⟩

end Arbiter

/-! ## The packets that can be placed (R133, R136, R150, R152 to R154) -/

/-- What a packet costs (R150, R152). -/
theorem payCredit_eq (lifted : Bool) (s : State) : payCredit lifted s =
    { s with ina := { s.ina with credits := if lifted then s.ina.credits else s.ina.credits - 1 } } := by
  cases lifted <;> rfl

/-- Packing looks at the carousel alone and changes the carousel alone (R130, R131). -/
theorem pack_of_gcr {s t : State} (gcr : t.gcr = s.gcr) : pack t = { t with gcr := (pack s).gcr } := by
  unfold pack
  rw [gcr]
  dsimp only
  split
  · rw [← gcr]
  · split
    · split
      · rw [← gcr]
      · rfl
    · split
      · rfl
      · rw [← gcr]

theorem pack_gcr_of {s t : State} (gcr : t.gcr = s.gcr) : (pack t).gcr = (pack s).gcr := by
  rw [pack_of_gcr gcr]

section Packets
variable {lifted : Bool} {src : FreeSource} {rest : List OutPosition} {s v : State}

theorem nullFor_of_input {q : List (BitVec 8)} (h : src = .inputNull q) : nullFor src = q := by rw [h]; rfl

theorem nullFor_of_other (h : ∀ q, src ≠ .inputNull q) : nullFor src = nullPacket := by
  cases src with
  | inputNull q => exact absurd rfl (h q)
  | removed | badSync | fill => rfl

/-- A null packet fills the free slot in its place (R154). -/
theorem placeNull_fills (out : v.out = (afterTake rest s).out) : fills (nullFor src) rest s (placeNull src v) := by
  unfold fills placeNull
  rw [drain_sequence]
  simp only [OutPath.sequence, out, afterTake]
  cases s.out.sending <;> simp

/-- A null packet changes the output alone, and has the input's own bytes where a null packet made the slot (R154). -/
theorem placeNull_spec (out : v.out = (afterTake rest s).out) :
    placeNull src v = { v with out := (placeNull src v).out } ∧
    (∀ q, src = .inputNull q → fills q rest s (placeNull src v)) ∧
    ((∀ q, src ≠ .inputNull q) → fills nullPacket rest s (placeNull src v)) :=
  ⟨rfl, fun _ own => nullFor_of_input own ▸ placeNull_fills out, fun other => nullFor_of_other other ▸ placeNull_fills out⟩

theorem placeSweep_none (none : v.gcr.ready = none) : placeSweep lifted src v = placeNull src v := by
  rw [placeSweep, none]

theorem placeSweep_ready {p : SweepPacket} (ready : v.gcr.ready = some p) : placeSweep lifted src v =
    place v.settings.grantPid (grantContent p.entries) (.sweep p.entries p.passEnd)
      { v with gcr := (pack { v with gcr := { v.gcr with ready := none } }).gcr
               ina := { v.ina with freshRun := 0
                                   credits := if lifted then v.ina.credits else v.ina.credits - 1 } } := by
  have packed := pack_of_gcr (s := { v with gcr := { v.gcr with ready := none } })
    (t := { v with gcr := { v.gcr with ready := none }, ina := { v.ina with freshRun := 0 } }) rfl
  simp only [placeSweep, ready, packed, payCredit_eq]

/-- The ready sweep packet in the free slot: the run begins again, the credit is paid and the next packet may be packed (R133,
R150, R153). -/
theorem sweep_placed {p : SweepPacket} (run : exec .freeSlot s = .next (placeSweep lifted src v))
    (same : SameArbiter (afterTake rest s) v) (memory : memoryWf s = true) (ready : v.gcr.ready = some p) :
    ∃ t, exec .freeSlot s = .next t ∧
      carries (insertedPacket s.settings.grantPid (counterOf v s.settings.grantPid) (grantContent p.entries))
        (.sweep p.entries p.passEnd) rest s t ∧
      counts s.settings.grantPid v t ∧
      t.ina = { v.ina with freshRun := 0, credits := if lifted then s.ina.credits else s.ina.credits - 1 } ∧
      t.gcr = (pack { v with gcr := { v.gcr with ready := none } }).gcr ∧
      t = { v with siu := { v.siu with continuity := t.siu.continuity }, out := t.out, ina := t.ina, gcr := t.gcr } := by
  obtain ⟨out, settings, credits, -, counters⟩ := same
  rw [show s.settings = v.settings from settings.symm, show s.ina.credits = v.ina.credits from credits.symm]
  rw [placeSweep_ready ready] at run
  exact ⟨_, run, place_carries (by simp) out, place_counts (counters (continuityWf memory)), rfl, rfl, rfl⟩

/-- A fresh packet in the free slot: the run goes on and the credit is paid (R136, R150, R153). -/
theorem fresh_placed {es : List GrantEntry} {pairs : List FreshPair}
    (run : exec .freeSlot s = .next (placeFresh lifted es pairs v)) (same : SameArbiter (afterTake rest s) v)
    (memory : memoryWf s = true) :
    ∃ t, exec .freeSlot s = .next t ∧
      carries (insertedPacket s.settings.grantPid (counterOf v s.settings.grantPid) (grantContent es))
        (.fresh es pairs) rest s t ∧
      counts s.settings.grantPid v t ∧
      t.ina = { v.ina with freshRun := nextRun s.ina.freshRun s.settings.freshRunLimit
                           credits := if lifted then s.ina.credits else s.ina.credits - 1 } ∧
      t = { v with siu := { v.siu with continuity := t.siu.continuity }, out := t.out, ina := t.ina } := by
  obtain ⟨out, settings, credits, freshRun, counters⟩ := same
  rw [show s.settings = v.settings from settings.symm, show s.ina.credits = v.ina.credits from credits.symm,
    show s.ina.freshRun = v.ina.freshRun from freshRun.symm]
  rw [placeFresh, payCredit_eq] at run
  exact ⟨_, run, place_carries (by simp) out, place_counts (counters (continuityWf memory)), rfl, rfl⟩

end Packets

/-! ## The choice (R137, R146, R150, R152, R153) -/

section Choice
variable {src : FreeSource} {rest : List OutPosition} {lifted : Bool} {s : State}

/-- Where fresh is not available, or has had its run beside a ready sweep packet, the choice is sweep (R153). -/
theorem placeGrant_sweep (h : s.running = false ∨ s.gcr.fresh = [] ∨
    (s.gcr.ready.isSome = true ∧ s.settings.freshRunLimit ≤ s.ina.freshRun)) :
    placeGrant lifted src s = placeSweep lifted src s := by
  refine if_neg ?_
  rcases h with idle | empty | ⟨ready, full⟩
  · simp [freshAvailable, idle]
  · simp [freshAvailable, empty]
  · simp [ready, full]

/-- Where fresh is available and has not had its run, the fresh build is asked first (R137, R153). -/
theorem placeGrant_fresh (running : s.running = true) (queued : s.gcr.fresh ≠ [])
    (turn : s.gcr.ready = none ∨ s.ina.freshRun < s.settings.freshRunLimit) :
    placeGrant lifted src s = if (freshBuild s).1 = [] then placeSweep lifted src (freshBuild s).2.2
      else placeFresh lifted (freshBuild s).1 (freshBuild s).2.1 (freshBuild s).2.2 := by
  refine if_pos ?_
  rcases turn with none | less
  · simp [freshAvailable, running, queued, none]
  · simp [freshAvailable, running, queued, Nat.not_le.2 less]

/-- FREE_SLOT with candidates 1 to 3 absent: a grant where the pace allows one, else a null packet (R146, R150, R152). -/
theorem exec_freeSlot_onlyGrants (free : atFree src rest s) (only : onlyGrants s) : exec .freeSlot s =
    .next (if s.paceLifted = true ∨ 0 < s.ina.credits then placeGrant s.paceLifted src (afterTake rest s)
      else placeNull src (afterTake rest s)) := by
  obtain ⟨words, status, entries⟩ := only
  have filled : fillFree src (afterTake rest s) = placeUnworded src (afterTake rest s) := by
    unfold fillFree
    rw [earliestDue_of_none (s := afterTake rest s) words]
  have noStatus : (afterTake rest s).ina.statusDue = false := status
  have noEntries : (afterTake rest s).rpu.entries = [] := entries
  have pace : (afterTake rest s).paceLifted = s.paceLifted := rfl
  have credits : (afterTake rest s).ina.credits = s.ina.credits := rfl
  rw [exec_freeSlot free, filled]
  simp [placeUnworded, noStatus, noEntries, pace, credits]

theorem exec_freeSlot_grant (free : atFree src rest s) (only : onlyGrants s)
    (paid : s.paceLifted = true ∨ 0 < s.ina.credits) :
    exec .freeSlot s = .next (placeGrant s.paceLifted src (afterTake rest s)) := by
  rw [exec_freeSlot_onlyGrants free only, if_pos paid]

/-- With no grant to send, or none to be paid for, the free slot takes a null packet (R146, R153, R154). -/
theorem exec_freeSlot_null (free : atFree src rest s) (only : onlyGrants s)
    (nothing : (s.paceLifted = false ∧ s.ina.credits = 0) ∨
      (s.gcr.ready = none ∧ (s.gcr.fresh = [] ∨ s.running = false))) :
    exec .freeSlot s = .next (placeNull src (afterTake rest s)) := by
  rw [exec_freeSlot_onlyGrants free only]
  split
  · next paid =>
    have noPacket : s.gcr.ready = none ∧ (s.gcr.fresh = [] ∨ s.running = false) := by
      refine nothing.resolve_left fun ⟨paced, spent⟩ => ?_
      simp [paced, spent] at paid
    obtain ⟨noSweep, noFresh⟩ := noPacket
    rw [placeGrant_sweep (s := afterTake rest s) (noFresh.elim (.inr ∘ .inl) .inl),
      placeSweep_none (v := afterTake rest s) noSweep]
  · rfl

end Choice

/-- Settles O11: by the choice that R153 makes, then by what the packet chosen does in the free slot. -/
theorem freeSlotGrantOrNull : Obligations.FreeSlotGrantOrNull := by
  refine ⟨fun src rest s u memory free only paid hu => ?_, fun src rest s free only nothing =>
    ⟨_, exec_freeSlot_null free only nothing, placeNull_spec rfl⟩⟩
  have granted := exec_freeSlot_grant free only paid
  refine ⟨fun p ready run => ?_, fun running queued turn => ?_⟩
  · have isSome : s.gcr.ready.isSome = true := by rw [ready]; rfl
    rw [placeGrant_sweep (s := afterTake rest s) (run.imp_right (Or.imp_right fun full => ⟨isSome, full⟩))] at granted
    obtain ⟨t, next, carried, counted, ina, gcr, frame⟩ := sweep_placed granted (.refl _) memory ready
    exact ⟨t, next, carried, counted, ina, gcr.trans (pack_gcr_of rfl), frame⟩
  · rw [placeGrant_fresh (s := afterTake rest s) running queued turn, ← hu] at granted
    obtain ⟨same, keptReady⟩ := freshBuild_arbiter (afterTake rest s)
    rw [← hu] at same keptReady
    refine ⟨fun es pairs hes hpairs something => ?_, fun nothing => ?_⟩
    · rw [← hes, ← hpairs, if_neg something] at granted
      exact fresh_placed granted same memory
    · rw [if_pos nothing] at granted
      refine ⟨fun p ready => sweep_placed granted same memory (keptReady.trans ready), fun noSweep => ?_⟩
      rw [placeSweep_none (keptReady.trans noSweep)] at granted
      exact ⟨_, granted, placeNull_spec same.out⟩

end Sys2Proof.Machine
